-- ==== Sys2Proof/Word.lean ====
section
/-! DEFINITION. The machine's two word types (`00_scope.md` R5, R6). -/

namespace Sys2Proof

/-- A `u8` of R6: registers, memory bytes, operand bytes. -/
abbrev Byte := BitVec 8

/-- A `u16` of R6: `pc` and addresses. Addition wraps modulo 65536 (R26). -/
abbrev Addr := BitVec 16

end Sys2Proof
end

