-- ==== Sys2Proof/Config.lean ====
section
/-! DEFINITION. What `00_scope.md` R5 lists as open parameters and fixed addresses. -/

namespace Sys2Proof

/-- The configuration of R5 and R18: fixed for a machine, changed by no step. -/
structure Config where
  /-- `ILLEGAL_NOPS` (R38): pairs (opcode byte, cycle cost), each a one-byte NOP. -/
  illegalNops : List (Byte × Nat)
  deriving DecidableEq, Repr

/-- The spec's default (R5, R38): no illegal NOP. DESIGN CHOICE, log 4: `step` runs under this one;
`decode` and `stepWith` take any configuration. -/
def Config.default : Config := { illegalNops := [] }

/-- `ENTRY` of `State.reset`. DESIGN CHOICE, log 1: the spec leaves it open (R5); `State.construct`
takes any. -/
def Config.entry : Addr := 0x0200

/-- What an address that memory (or the stack buffer) does not list reads as.
DESIGN CHOICE, logs 2 and 3: the spec leaves `MEM_INIT` and `STACK_INIT` open (R5). -/
def Config.unlistedByte : Byte := 0x00

end Sys2Proof
end

