-- ==== Sys2Proof/Syntax.lean ====
section
/-! DEFINITION. The instruction set as syntax: one constructor for each of the 151 rows of
`opcode_table.json` (`30_encoding.md` R36), and one for the rows `ILLEGAL_NOPS` adds (R38).

A constructor's name is its mnemonic and a suffix for its addressing mode: `Imm` Immediate, `Zp` Zero Page,
`ZpX` Zero Page,X, `ZpY` Zero Page,Y, `Abs` Absolute, `AbsX` Absolute,X, `AbsY` Absolute,Y, `Ind` Indirect,
`IndX` Indirect,X, `IndY` Indirect,Y, `Acc` Accumulator; Implied, Relative and JSR have no suffix.
Its argument is the operand byte (format F2) or the 16-bit operand `b2:b1` (format F3) of R33, R35. -/

namespace Sys2Proof

/-- The thirteen addressing modes (`41_addressing_modes.md` R55 to R67). -/
inductive Mode where
  | implied | accumulator | immediate
  | zeroPage | zeroPageX | zeroPageY
  | absolute | absoluteX | absoluteY
  | indirect | indirectX | indirectY
  | relative
  deriving DecidableEq, Repr

/-- The `+` column of the dispatch table (R36): which increments a row's cost can get. -/
inductive Extra where
  /-- `-`: the cost is constant. -/
  | none
  /-- `p`: one more cycle if the resolver reports a page crossing (R68). -/
  | pageCross
  /-- `b`: the branch increments (R91). -/
  | branch
  deriving DecidableEq, Repr

/-- An instruction. -/
inductive Instr where
  -- ADC: R70
  | adcImm (v : Byte)
  | adcZp (b : Byte)
  | adcZpX (b : Byte)
  | adcAbs (w : Addr)
  | adcAbsX (w : Addr)
  | adcAbsY (w : Addr)
  | adcIndX (b : Byte)
  | adcIndY (b : Byte)
  -- SBC: R71
  | sbcImm (v : Byte)
  | sbcZp (b : Byte)
  | sbcZpX (b : Byte)
  | sbcAbs (w : Addr)
  | sbcAbsX (w : Addr)
  | sbcAbsY (w : Addr)
  | sbcIndX (b : Byte)
  | sbcIndY (b : Byte)
  -- AND: R73
  | andImm (v : Byte)
  | andZp (b : Byte)
  | andZpX (b : Byte)
  | andAbs (w : Addr)
  | andAbsX (w : Addr)
  | andAbsY (w : Addr)
  | andIndX (b : Byte)
  | andIndY (b : Byte)
  -- ORA: R74
  | oraImm (v : Byte)
  | oraZp (b : Byte)
  | oraZpX (b : Byte)
  | oraAbs (w : Addr)
  | oraAbsX (w : Addr)
  | oraAbsY (w : Addr)
  | oraIndX (b : Byte)
  | oraIndY (b : Byte)
  -- EOR: R75
  | eorImm (v : Byte)
  | eorZp (b : Byte)
  | eorZpX (b : Byte)
  | eorAbs (w : Addr)
  | eorAbsX (w : Addr)
  | eorAbsY (w : Addr)
  | eorIndX (b : Byte)
  | eorIndY (b : Byte)
  -- BIT: R76
  | bitZp (b : Byte)
  | bitAbs (w : Addr)
  -- ASL: R77
  | aslAcc
  | aslZp (b : Byte)
  | aslZpX (b : Byte)
  | aslAbs (w : Addr)
  | aslAbsX (w : Addr)
  -- LSR: R78
  | lsrAcc
  | lsrZp (b : Byte)
  | lsrZpX (b : Byte)
  | lsrAbs (w : Addr)
  | lsrAbsX (w : Addr)
  -- ROL: R79
  | rolAcc
  | rolZp (b : Byte)
  | rolZpX (b : Byte)
  | rolAbs (w : Addr)
  | rolAbsX (w : Addr)
  -- ROR: R80
  | rorAcc
  | rorZp (b : Byte)
  | rorZpX (b : Byte)
  | rorAbs (w : Addr)
  | rorAbsX (w : Addr)
  -- CMP: R82
  | cmpImm (v : Byte)
  | cmpZp (b : Byte)
  | cmpZpX (b : Byte)
  | cmpAbs (w : Addr)
  | cmpAbsX (w : Addr)
  | cmpAbsY (w : Addr)
  | cmpIndX (b : Byte)
  | cmpIndY (b : Byte)
  -- CPX: R83
  | cpxImm (v : Byte)
  | cpxZp (b : Byte)
  | cpxAbs (w : Addr)
  -- CPY: R84
  | cpyImm (v : Byte)
  | cpyZp (b : Byte)
  | cpyAbs (w : Addr)
  -- DEC: R85
  | decZp (b : Byte)
  | decZpX (b : Byte)
  | decAbs (w : Addr)
  | decAbsX (w : Addr)
  -- INC: R86
  | incZp (b : Byte)
  | incZpX (b : Byte)
  | incAbs (w : Addr)
  | incAbsX (w : Addr)
  -- DEX: R87
  | dex
  -- DEY: R88
  | dey
  -- INX: R89
  | inx
  -- INY: R90
  | iny
  -- BCC: R92
  | bcc (d : Byte)
  -- BCS: R93
  | bcs (d : Byte)
  -- BEQ: R94
  | beq (d : Byte)
  -- BNE: R95
  | bne (d : Byte)
  -- BMI: R96
  | bmi (d : Byte)
  -- BPL: R97
  | bpl (d : Byte)
  -- BVC: R98
  | bvc (d : Byte)
  -- BVS: R99
  | bvs (d : Byte)
  -- JMP: R100, R101
  | jmpAbs (w : Addr)
  | jmpInd (w : Addr)
  -- JSR: R102
  | jsr (w : Addr)
  -- RTS: R103
  | rts
  -- BRK: R104
  | brk
  -- RTI: R105
  | rti
  -- PHA: R106
  | pha
  -- PLA: R107
  | pla
  -- PHP: R108
  | php
  -- PLP: R109
  | plp
  -- TAX: R110
  | tax
  -- TAY: R111
  | tay
  -- TXA: R112
  | txa
  -- TYA: R113
  | tya
  -- TSX: R114
  | tsx
  -- TXS: R115
  | txs
  -- CLC: R116
  | clc
  -- SEC: R117
  | sec
  -- CLI: R118
  | cli
  -- SEI: R119
  | sei
  -- CLV: R120
  | clv
  -- CLD: R121
  | cld
  -- SED: R122
  | sed
  -- NOP: R123
  | nop
  -- LDA: R124
  | ldaImm (v : Byte)
  | ldaZp (b : Byte)
  | ldaZpX (b : Byte)
  | ldaAbs (w : Addr)
  | ldaAbsX (w : Addr)
  | ldaAbsY (w : Addr)
  | ldaIndX (b : Byte)
  | ldaIndY (b : Byte)
  -- LDX: R125
  | ldxImm (v : Byte)
  | ldxZp (b : Byte)
  | ldxZpY (b : Byte)
  | ldxAbs (w : Addr)
  | ldxAbsY (w : Addr)
  -- LDY: R126
  | ldyImm (v : Byte)
  | ldyZp (b : Byte)
  | ldyZpX (b : Byte)
  | ldyAbs (w : Addr)
  | ldyAbsX (w : Addr)
  -- STA: R127
  | staZp (b : Byte)
  | staZpX (b : Byte)
  | staAbs (w : Addr)
  | staAbsX (w : Addr)
  | staAbsY (w : Addr)
  | staIndX (b : Byte)
  | staIndY (b : Byte)
  -- STX: R128
  | stxZp (b : Byte)
  | stxZpY (b : Byte)
  | stxAbs (w : Addr)
  -- STY: R129
  | styZp (b : Byte)
  | styZpX (b : Byte)
  | styAbs (w : Addr)
  /-- An entry (op, cyc) of `ILLEGAL_NOPS` (R38): a one-byte NOP that costs `cyc`. -/
  | nopIllegal (op : Byte) (cyc : Nat)
  deriving DecidableEq, Repr

end Sys2Proof
end

