-- ==== Sys2Proof/Decode.lean ====
section
/-! DEFINITION. The dispatch table, the decoder and the encoder (`30_encoding.md` R33 to R38). -/

namespace Sys2Proof

/-- `hi(w)` of R6. -/
def hi (w : Addr) : Byte := w.extractLsb' 8 8

/-- `lo(w)` of R6. -/
def lo (w : Addr) : Byte := w.extractLsb' 0 8

/-- `h:l` of R6: the word whose high byte is `h`. -/
def wordOf (h l : Byte) : Addr := h ++ l

/-- How a row turns operand bytes into its instruction: the three formats of R33. -/
inductive Form where
  /-- F1: no operand byte. -/
  | f1 (i : Instr)
  /-- F2: one operand byte. -/
  | f2 (make : Byte → Instr)
  /-- F3: two operand bytes, the low one first (R22, R35). -/
  | f3 (make : Addr → Instr)

/-- A row of the dispatch table (R36). -/
structure Row where
  /-- The opcode byte. -/
  opcode : Byte
  /-- The mnemonic. -/
  mnemonic : String
  /-- The addressing mode. -/
  mode : Mode
  /-- The base cycle cost `cyc`. -/
  cycles : Nat
  /-- The `+` column. -/
  extra : Extra
  /-- The instruction the row stands for. -/
  form : Form

/-- Instruction length in bytes by mode: 1 plus the operand bytes the mode consumes (R33, R34). -/
def Mode.length : Mode → Nat
  | .implied | .accumulator => 1
  | .immediate | .zeroPage | .zeroPageX | .zeroPageY | .indirectX | .indirectY | .relative => 2
  | .absolute | .absoluteX | .absoluteY | .indirect => 3

/-- R36, opcode bytes 0x00 to 0x1F. -/
def dispatchRows01 : List Row := [
  ⟨0x00, "BRK", .implied, 7, .none, .f1 .brk⟩,
  ⟨0x01, "ORA", .indirectX, 6, .none, .f2 .oraIndX⟩,
  ⟨0x05, "ORA", .zeroPage, 3, .none, .f2 .oraZp⟩,
  ⟨0x06, "ASL", .zeroPage, 5, .none, .f2 .aslZp⟩,
  ⟨0x08, "PHP", .implied, 3, .none, .f1 .php⟩,
  ⟨0x09, "ORA", .immediate, 2, .none, .f2 .oraImm⟩,
  ⟨0x0A, "ASL", .accumulator, 2, .none, .f1 .aslAcc⟩,
  ⟨0x0D, "ORA", .absolute, 4, .none, .f3 .oraAbs⟩,
  ⟨0x0E, "ASL", .absolute, 6, .none, .f3 .aslAbs⟩,
  ⟨0x10, "BPL", .relative, 2, .branch, .f2 .bpl⟩,
  ⟨0x11, "ORA", .indirectY, 5, .pageCross, .f2 .oraIndY⟩,
  ⟨0x15, "ORA", .zeroPageX, 4, .none, .f2 .oraZpX⟩,
  ⟨0x16, "ASL", .zeroPageX, 6, .none, .f2 .aslZpX⟩,
  ⟨0x18, "CLC", .implied, 2, .none, .f1 .clc⟩,
  ⟨0x19, "ORA", .absoluteY, 4, .pageCross, .f3 .oraAbsY⟩,
  ⟨0x1D, "ORA", .absoluteX, 4, .pageCross, .f3 .oraAbsX⟩,
  ⟨0x1E, "ASL", .absoluteX, 7, .none, .f3 .aslAbsX⟩]

/-- R36, opcode bytes 0x20 to 0x3F. -/
def dispatchRows23 : List Row := [
  ⟨0x20, "JSR", .absolute, 6, .none, .f3 .jsr⟩,
  ⟨0x21, "AND", .indirectX, 6, .none, .f2 .andIndX⟩,
  ⟨0x24, "BIT", .zeroPage, 3, .none, .f2 .bitZp⟩,
  ⟨0x25, "AND", .zeroPage, 3, .none, .f2 .andZp⟩,
  ⟨0x26, "ROL", .zeroPage, 5, .none, .f2 .rolZp⟩,
  ⟨0x28, "PLP", .implied, 4, .none, .f1 .plp⟩,
  ⟨0x29, "AND", .immediate, 2, .none, .f2 .andImm⟩,
  ⟨0x2A, "ROL", .accumulator, 2, .none, .f1 .rolAcc⟩,
  ⟨0x2C, "BIT", .absolute, 4, .none, .f3 .bitAbs⟩,
  ⟨0x2D, "AND", .absolute, 4, .none, .f3 .andAbs⟩,
  ⟨0x2E, "ROL", .absolute, 6, .none, .f3 .rolAbs⟩,
  ⟨0x30, "BMI", .relative, 2, .branch, .f2 .bmi⟩,
  ⟨0x31, "AND", .indirectY, 5, .pageCross, .f2 .andIndY⟩,
  ⟨0x35, "AND", .zeroPageX, 4, .none, .f2 .andZpX⟩,
  ⟨0x36, "ROL", .zeroPageX, 6, .none, .f2 .rolZpX⟩,
  ⟨0x38, "SEC", .implied, 2, .none, .f1 .sec⟩,
  ⟨0x39, "AND", .absoluteY, 4, .pageCross, .f3 .andAbsY⟩,
  ⟨0x3D, "AND", .absoluteX, 4, .pageCross, .f3 .andAbsX⟩,
  ⟨0x3E, "ROL", .absoluteX, 7, .none, .f3 .rolAbsX⟩]

/-- R36, opcode bytes 0x40 to 0x5F. -/
def dispatchRows45 : List Row := [
  ⟨0x40, "RTI", .implied, 6, .none, .f1 .rti⟩,
  ⟨0x41, "EOR", .indirectX, 6, .none, .f2 .eorIndX⟩,
  ⟨0x45, "EOR", .zeroPage, 3, .none, .f2 .eorZp⟩,
  ⟨0x46, "LSR", .zeroPage, 5, .none, .f2 .lsrZp⟩,
  ⟨0x48, "PHA", .implied, 3, .none, .f1 .pha⟩,
  ⟨0x49, "EOR", .immediate, 2, .none, .f2 .eorImm⟩,
  ⟨0x4A, "LSR", .accumulator, 2, .none, .f1 .lsrAcc⟩,
  ⟨0x4C, "JMP", .absolute, 3, .none, .f3 .jmpAbs⟩,
  ⟨0x4D, "EOR", .absolute, 4, .none, .f3 .eorAbs⟩,
  ⟨0x4E, "LSR", .absolute, 6, .none, .f3 .lsrAbs⟩,
  ⟨0x50, "BVC", .relative, 2, .branch, .f2 .bvc⟩,
  ⟨0x51, "EOR", .indirectY, 5, .pageCross, .f2 .eorIndY⟩,
  ⟨0x55, "EOR", .zeroPageX, 4, .none, .f2 .eorZpX⟩,
  ⟨0x56, "LSR", .zeroPageX, 6, .none, .f2 .lsrZpX⟩,
  ⟨0x58, "CLI", .implied, 2, .none, .f1 .cli⟩,
  ⟨0x59, "EOR", .absoluteY, 4, .pageCross, .f3 .eorAbsY⟩,
  ⟨0x5D, "EOR", .absoluteX, 4, .pageCross, .f3 .eorAbsX⟩,
  ⟨0x5E, "LSR", .absoluteX, 7, .none, .f3 .lsrAbsX⟩]

/-- R36, opcode bytes 0x60 to 0x7F. -/
def dispatchRows67 : List Row := [
  ⟨0x60, "RTS", .implied, 6, .none, .f1 .rts⟩,
  ⟨0x61, "ADC", .indirectX, 6, .none, .f2 .adcIndX⟩,
  ⟨0x65, "ADC", .zeroPage, 3, .none, .f2 .adcZp⟩,
  ⟨0x66, "ROR", .zeroPage, 5, .none, .f2 .rorZp⟩,
  ⟨0x68, "PLA", .implied, 4, .none, .f1 .pla⟩,
  ⟨0x69, "ADC", .immediate, 2, .none, .f2 .adcImm⟩,
  ⟨0x6A, "ROR", .accumulator, 2, .none, .f1 .rorAcc⟩,
  ⟨0x6C, "JMP", .indirect, 5, .none, .f3 .jmpInd⟩,
  ⟨0x6D, "ADC", .absolute, 4, .none, .f3 .adcAbs⟩,
  ⟨0x6E, "ROR", .absolute, 6, .none, .f3 .rorAbs⟩,
  ⟨0x70, "BVS", .relative, 2, .branch, .f2 .bvs⟩,
  ⟨0x71, "ADC", .indirectY, 5, .pageCross, .f2 .adcIndY⟩,
  ⟨0x75, "ADC", .zeroPageX, 4, .none, .f2 .adcZpX⟩,
  ⟨0x76, "ROR", .zeroPageX, 6, .none, .f2 .rorZpX⟩,
  ⟨0x78, "SEI", .implied, 2, .none, .f1 .sei⟩,
  ⟨0x79, "ADC", .absoluteY, 4, .pageCross, .f3 .adcAbsY⟩,
  ⟨0x7D, "ADC", .absoluteX, 4, .pageCross, .f3 .adcAbsX⟩,
  ⟨0x7E, "ROR", .absoluteX, 7, .none, .f3 .rorAbsX⟩]

/-- R36, opcode bytes 0x80 to 0x9F. -/
def dispatchRows89 : List Row := [
  ⟨0x81, "STA", .indirectX, 6, .none, .f2 .staIndX⟩,
  ⟨0x84, "STY", .zeroPage, 3, .none, .f2 .styZp⟩,
  ⟨0x85, "STA", .zeroPage, 3, .none, .f2 .staZp⟩,
  ⟨0x86, "STX", .zeroPage, 3, .none, .f2 .stxZp⟩,
  ⟨0x88, "DEY", .implied, 2, .none, .f1 .dey⟩,
  ⟨0x8A, "TXA", .implied, 2, .none, .f1 .txa⟩,
  ⟨0x8C, "STY", .absolute, 4, .none, .f3 .styAbs⟩,
  ⟨0x8D, "STA", .absolute, 4, .none, .f3 .staAbs⟩,
  ⟨0x8E, "STX", .absolute, 4, .none, .f3 .stxAbs⟩,
  ⟨0x90, "BCC", .relative, 2, .branch, .f2 .bcc⟩,
  ⟨0x91, "STA", .indirectY, 6, .none, .f2 .staIndY⟩,
  ⟨0x94, "STY", .zeroPageX, 4, .none, .f2 .styZpX⟩,
  ⟨0x95, "STA", .zeroPageX, 4, .none, .f2 .staZpX⟩,
  ⟨0x96, "STX", .zeroPageY, 4, .none, .f2 .stxZpY⟩,
  ⟨0x98, "TYA", .implied, 2, .none, .f1 .tya⟩,
  ⟨0x99, "STA", .absoluteY, 5, .none, .f3 .staAbsY⟩,
  ⟨0x9A, "TXS", .implied, 2, .none, .f1 .txs⟩,
  ⟨0x9D, "STA", .absoluteX, 5, .none, .f3 .staAbsX⟩]

/-- R36, opcode bytes 0xA0 to 0xBF. -/
def dispatchRowsAB : List Row := [
  ⟨0xA0, "LDY", .immediate, 2, .none, .f2 .ldyImm⟩,
  ⟨0xA1, "LDA", .indirectX, 6, .none, .f2 .ldaIndX⟩,
  ⟨0xA2, "LDX", .immediate, 2, .none, .f2 .ldxImm⟩,
  ⟨0xA4, "LDY", .zeroPage, 3, .none, .f2 .ldyZp⟩,
  ⟨0xA5, "LDA", .zeroPage, 3, .none, .f2 .ldaZp⟩,
  ⟨0xA6, "LDX", .zeroPage, 3, .none, .f2 .ldxZp⟩,
  ⟨0xA8, "TAY", .implied, 2, .none, .f1 .tay⟩,
  ⟨0xA9, "LDA", .immediate, 2, .none, .f2 .ldaImm⟩,
  ⟨0xAA, "TAX", .implied, 2, .none, .f1 .tax⟩,
  ⟨0xAC, "LDY", .absolute, 4, .none, .f3 .ldyAbs⟩,
  ⟨0xAD, "LDA", .absolute, 4, .none, .f3 .ldaAbs⟩,
  ⟨0xAE, "LDX", .absolute, 4, .none, .f3 .ldxAbs⟩,
  ⟨0xB0, "BCS", .relative, 2, .branch, .f2 .bcs⟩,
  ⟨0xB1, "LDA", .indirectY, 5, .pageCross, .f2 .ldaIndY⟩,
  ⟨0xB4, "LDY", .zeroPageX, 4, .none, .f2 .ldyZpX⟩,
  ⟨0xB5, "LDA", .zeroPageX, 4, .none, .f2 .ldaZpX⟩,
  ⟨0xB6, "LDX", .zeroPageY, 4, .none, .f2 .ldxZpY⟩,
  ⟨0xB8, "CLV", .implied, 2, .none, .f1 .clv⟩,
  ⟨0xB9, "LDA", .absoluteY, 4, .pageCross, .f3 .ldaAbsY⟩,
  ⟨0xBA, "TSX", .implied, 2, .none, .f1 .tsx⟩,
  ⟨0xBC, "LDY", .absoluteX, 4, .pageCross, .f3 .ldyAbsX⟩,
  ⟨0xBD, "LDA", .absoluteX, 4, .pageCross, .f3 .ldaAbsX⟩,
  ⟨0xBE, "LDX", .absoluteY, 4, .pageCross, .f3 .ldxAbsY⟩]

/-- R36, opcode bytes 0xC0 to 0xDF. -/
def dispatchRowsCD : List Row := [
  ⟨0xC0, "CPY", .immediate, 2, .none, .f2 .cpyImm⟩,
  ⟨0xC1, "CMP", .indirectX, 6, .none, .f2 .cmpIndX⟩,
  ⟨0xC4, "CPY", .zeroPage, 3, .none, .f2 .cpyZp⟩,
  ⟨0xC5, "CMP", .zeroPage, 3, .none, .f2 .cmpZp⟩,
  ⟨0xC6, "DEC", .zeroPage, 5, .none, .f2 .decZp⟩,
  ⟨0xC8, "INY", .implied, 2, .none, .f1 .iny⟩,
  ⟨0xC9, "CMP", .immediate, 2, .none, .f2 .cmpImm⟩,
  ⟨0xCA, "DEX", .implied, 2, .none, .f1 .dex⟩,
  ⟨0xCC, "CPY", .absolute, 4, .none, .f3 .cpyAbs⟩,
  ⟨0xCD, "CMP", .absolute, 4, .none, .f3 .cmpAbs⟩,
  ⟨0xCE, "DEC", .absolute, 6, .none, .f3 .decAbs⟩,
  ⟨0xD0, "BNE", .relative, 2, .branch, .f2 .bne⟩,
  ⟨0xD1, "CMP", .indirectY, 5, .pageCross, .f2 .cmpIndY⟩,
  ⟨0xD5, "CMP", .zeroPageX, 4, .none, .f2 .cmpZpX⟩,
  ⟨0xD6, "DEC", .zeroPageX, 6, .none, .f2 .decZpX⟩,
  ⟨0xD8, "CLD", .implied, 2, .none, .f1 .cld⟩,
  ⟨0xD9, "CMP", .absoluteY, 4, .pageCross, .f3 .cmpAbsY⟩,
  ⟨0xDD, "CMP", .absoluteX, 4, .pageCross, .f3 .cmpAbsX⟩,
  ⟨0xDE, "DEC", .absoluteX, 7, .none, .f3 .decAbsX⟩]

/-- R36, opcode bytes 0xE0 to 0xFF. -/
def dispatchRowsEF : List Row := [
  ⟨0xE0, "CPX", .immediate, 2, .none, .f2 .cpxImm⟩,
  ⟨0xE1, "SBC", .indirectX, 6, .none, .f2 .sbcIndX⟩,
  ⟨0xE4, "CPX", .zeroPage, 3, .none, .f2 .cpxZp⟩,
  ⟨0xE5, "SBC", .zeroPage, 3, .none, .f2 .sbcZp⟩,
  ⟨0xE6, "INC", .zeroPage, 5, .none, .f2 .incZp⟩,
  ⟨0xE8, "INX", .implied, 2, .none, .f1 .inx⟩,
  ⟨0xE9, "SBC", .immediate, 2, .none, .f2 .sbcImm⟩,
  ⟨0xEA, "NOP", .implied, 2, .none, .f1 .nop⟩,
  ⟨0xEC, "CPX", .absolute, 4, .none, .f3 .cpxAbs⟩,
  ⟨0xED, "SBC", .absolute, 4, .none, .f3 .sbcAbs⟩,
  ⟨0xEE, "INC", .absolute, 6, .none, .f3 .incAbs⟩,
  ⟨0xF0, "BEQ", .relative, 2, .branch, .f2 .beq⟩,
  ⟨0xF1, "SBC", .indirectY, 5, .pageCross, .f2 .sbcIndY⟩,
  ⟨0xF5, "SBC", .zeroPageX, 4, .none, .f2 .sbcZpX⟩,
  ⟨0xF6, "INC", .zeroPageX, 6, .none, .f2 .incZpX⟩,
  ⟨0xF8, "SED", .implied, 2, .none, .f1 .sed⟩,
  ⟨0xF9, "SBC", .absoluteY, 4, .pageCross, .f3 .sbcAbsY⟩,
  ⟨0xFD, "SBC", .absoluteX, 4, .pageCross, .f3 .sbcAbsX⟩,
  ⟨0xFE, "INC", .absoluteX, 7, .none, .f3 .incAbsX⟩]

/-- The dispatch table (R36), sorted by opcode byte. -/
def dispatchTable : List Row :=
  dispatchRows01 ++ dispatchRows23 ++ dispatchRows45 ++ dispatchRows67 ++
  dispatchRows89 ++ dispatchRowsAB ++ dispatchRowsCD ++ dispatchRowsEF

/-- `lookup(op)` in the 151 rows (R132). -/
def lookup (op : Byte) : Option Row := dispatchTable.find? (fun r => r.opcode == op)

/-- Why a list of bytes is no instruction. -/
inductive DecodeError where
  /-- There is no opcode byte. -/
  | noBytes
  /-- The byte has no row and is not in `ILLEGAL_NOPS` (R37). -/
  | unimplementedOpcode (op : Byte)
  /-- The row's operand bytes are missing. The machine never meets this: it reads three bytes. -/
  | missingOperand (op : Byte)
  deriving DecidableEq, Repr

/-- Reads a row's operand bytes (R35) off the bytes after the opcode. -/
def Form.read (op : Byte) : Form → List Byte → Except DecodeError (Instr × List Byte)
  | .f1 i, rest => .ok (i, rest)
  | .f2 make, b1 :: rest => .ok (make b1, rest)
  | .f3 make, b1 :: b2 :: rest => .ok (make (wordOf b2 b1), rest)
  | .f2 _, [] => .error (.missingOperand op)
  | .f3 _, [] => .error (.missingOperand op)
  | .f3 _, [_] => .error (.missingOperand op)

/-- The cost of `op` as an entry of `ILLEGAL_NOPS` (R38), the first entry if a byte is listed twice
(which `Config.wf` refuses; log 12). -/
def illegalNop (cfg : Config) (op : Byte) : Option (Byte × Nat) :=
  cfg.illegalNops.find? (fun e => e.1 == op)

/-- Decode (R132): the opcode byte alone picks the row, first in the table and then in `ILLEGAL_NOPS`; answers
the instruction and the bytes after it. -/
def decode (cfg : Config) : List Byte → Except DecodeError (Instr × List Byte)
  | [] => .error .noBytes
  | op :: rest =>
    match lookup op with
    | some row => row.form.read op rest
    | none =>
      match illegalNop cfg op with
      | some e => .ok (.nopIllegal e.1 e.2, rest)
      | none => .error (.unimplementedOpcode op)

/-- The bytes of an instruction in memory order (R33): the opcode of R36, then the operand, low byte first. -/
def encode : Instr → List Byte
  | .adcImm v => [0x69, v]
  | .adcZp b => [0x65, b]
  | .adcZpX b => [0x75, b]
  | .adcAbs w => [0x6D, lo w, hi w]
  | .adcAbsX w => [0x7D, lo w, hi w]
  | .adcAbsY w => [0x79, lo w, hi w]
  | .adcIndX b => [0x61, b]
  | .adcIndY b => [0x71, b]
  | .sbcImm v => [0xE9, v]
  | .sbcZp b => [0xE5, b]
  | .sbcZpX b => [0xF5, b]
  | .sbcAbs w => [0xED, lo w, hi w]
  | .sbcAbsX w => [0xFD, lo w, hi w]
  | .sbcAbsY w => [0xF9, lo w, hi w]
  | .sbcIndX b => [0xE1, b]
  | .sbcIndY b => [0xF1, b]
  | .andImm v => [0x29, v]
  | .andZp b => [0x25, b]
  | .andZpX b => [0x35, b]
  | .andAbs w => [0x2D, lo w, hi w]
  | .andAbsX w => [0x3D, lo w, hi w]
  | .andAbsY w => [0x39, lo w, hi w]
  | .andIndX b => [0x21, b]
  | .andIndY b => [0x31, b]
  | .oraImm v => [0x09, v]
  | .oraZp b => [0x05, b]
  | .oraZpX b => [0x15, b]
  | .oraAbs w => [0x0D, lo w, hi w]
  | .oraAbsX w => [0x1D, lo w, hi w]
  | .oraAbsY w => [0x19, lo w, hi w]
  | .oraIndX b => [0x01, b]
  | .oraIndY b => [0x11, b]
  | .eorImm v => [0x49, v]
  | .eorZp b => [0x45, b]
  | .eorZpX b => [0x55, b]
  | .eorAbs w => [0x4D, lo w, hi w]
  | .eorAbsX w => [0x5D, lo w, hi w]
  | .eorAbsY w => [0x59, lo w, hi w]
  | .eorIndX b => [0x41, b]
  | .eorIndY b => [0x51, b]
  | .bitZp b => [0x24, b]
  | .bitAbs w => [0x2C, lo w, hi w]
  | .aslAcc => [0x0A]
  | .aslZp b => [0x06, b]
  | .aslZpX b => [0x16, b]
  | .aslAbs w => [0x0E, lo w, hi w]
  | .aslAbsX w => [0x1E, lo w, hi w]
  | .lsrAcc => [0x4A]
  | .lsrZp b => [0x46, b]
  | .lsrZpX b => [0x56, b]
  | .lsrAbs w => [0x4E, lo w, hi w]
  | .lsrAbsX w => [0x5E, lo w, hi w]
  | .rolAcc => [0x2A]
  | .rolZp b => [0x26, b]
  | .rolZpX b => [0x36, b]
  | .rolAbs w => [0x2E, lo w, hi w]
  | .rolAbsX w => [0x3E, lo w, hi w]
  | .rorAcc => [0x6A]
  | .rorZp b => [0x66, b]
  | .rorZpX b => [0x76, b]
  | .rorAbs w => [0x6E, lo w, hi w]
  | .rorAbsX w => [0x7E, lo w, hi w]
  | .cmpImm v => [0xC9, v]
  | .cmpZp b => [0xC5, b]
  | .cmpZpX b => [0xD5, b]
  | .cmpAbs w => [0xCD, lo w, hi w]
  | .cmpAbsX w => [0xDD, lo w, hi w]
  | .cmpAbsY w => [0xD9, lo w, hi w]
  | .cmpIndX b => [0xC1, b]
  | .cmpIndY b => [0xD1, b]
  | .cpxImm v => [0xE0, v]
  | .cpxZp b => [0xE4, b]
  | .cpxAbs w => [0xEC, lo w, hi w]
  | .cpyImm v => [0xC0, v]
  | .cpyZp b => [0xC4, b]
  | .cpyAbs w => [0xCC, lo w, hi w]
  | .decZp b => [0xC6, b]
  | .decZpX b => [0xD6, b]
  | .decAbs w => [0xCE, lo w, hi w]
  | .decAbsX w => [0xDE, lo w, hi w]
  | .incZp b => [0xE6, b]
  | .incZpX b => [0xF6, b]
  | .incAbs w => [0xEE, lo w, hi w]
  | .incAbsX w => [0xFE, lo w, hi w]
  | .dex => [0xCA]
  | .dey => [0x88]
  | .inx => [0xE8]
  | .iny => [0xC8]
  | .bcc d => [0x90, d]
  | .bcs d => [0xB0, d]
  | .beq d => [0xF0, d]
  | .bne d => [0xD0, d]
  | .bmi d => [0x30, d]
  | .bpl d => [0x10, d]
  | .bvc d => [0x50, d]
  | .bvs d => [0x70, d]
  | .jmpAbs w => [0x4C, lo w, hi w]
  | .jmpInd w => [0x6C, lo w, hi w]
  | .jsr w => [0x20, lo w, hi w]
  | .rts => [0x60]
  | .brk => [0x00]
  | .rti => [0x40]
  | .pha => [0x48]
  | .pla => [0x68]
  | .php => [0x08]
  | .plp => [0x28]
  | .tax => [0xAA]
  | .tay => [0xA8]
  | .txa => [0x8A]
  | .tya => [0x98]
  | .tsx => [0xBA]
  | .txs => [0x9A]
  | .clc => [0x18]
  | .sec => [0x38]
  | .cli => [0x58]
  | .sei => [0x78]
  | .clv => [0xB8]
  | .cld => [0xD8]
  | .sed => [0xF8]
  | .nop => [0xEA]
  | .ldaImm v => [0xA9, v]
  | .ldaZp b => [0xA5, b]
  | .ldaZpX b => [0xB5, b]
  | .ldaAbs w => [0xAD, lo w, hi w]
  | .ldaAbsX w => [0xBD, lo w, hi w]
  | .ldaAbsY w => [0xB9, lo w, hi w]
  | .ldaIndX b => [0xA1, b]
  | .ldaIndY b => [0xB1, b]
  | .ldxImm v => [0xA2, v]
  | .ldxZp b => [0xA6, b]
  | .ldxZpY b => [0xB6, b]
  | .ldxAbs w => [0xAE, lo w, hi w]
  | .ldxAbsY w => [0xBE, lo w, hi w]
  | .ldyImm v => [0xA0, v]
  | .ldyZp b => [0xA4, b]
  | .ldyZpX b => [0xB4, b]
  | .ldyAbs w => [0xAC, lo w, hi w]
  | .ldyAbsX w => [0xBC, lo w, hi w]
  | .staZp b => [0x85, b]
  | .staZpX b => [0x95, b]
  | .staAbs w => [0x8D, lo w, hi w]
  | .staAbsX w => [0x9D, lo w, hi w]
  | .staAbsY w => [0x99, lo w, hi w]
  | .staIndX b => [0x81, b]
  | .staIndY b => [0x91, b]
  | .stxZp b => [0x86, b]
  | .stxZpY b => [0x96, b]
  | .stxAbs w => [0x8E, lo w, hi w]
  | .styZp b => [0x84, b]
  | .styZpX b => [0x94, b]
  | .styAbs w => [0x8C, lo w, hi w]
  | .nopIllegal op _ => [op]

/-- The three bytes of an instruction laid out from a table word: bit 0 of `w` is the least significant bit of
the first byte, and every bit from `nbits` on is 0. -/
def tableBytes (nbits w : Nat) : List Byte :=
  let v := w % 2 ^ nbits
  [BitVec.ofNat 8 v, BitVec.ofNat 8 (v / 256), BitVec.ofNat 8 (v / 65536)]

/-- The instruction the decoder reads from a table word, under the spec's default configuration. -/
def decodeTableWord (nbits w : Nat) : Option Instr :=
  match decode Config.default (tableBytes nbits w) with
  | .ok (i, _) => some i
  | .error _ => none

end Sys2Proof
end

