-- ==== Sys2Proof/Machine/Flags.lean ====
section
/-! DEFINITION. The flag algebra unit (`40_flag_algebra.md` R41 to R52) and the flag computations of the
instruction rules: pure functions on the status byte. -/

namespace Sys2Proof.Machine

/-- The six flags that `assign` of R51 can write. B (bit 4) has no helper (R50). -/
inductive Flag where
  | C | Z | I | D | V | N
  deriving DecidableEq, Repr

/-- The flag's mask (R41). -/
def Flag.mask : Flag → Byte
  | .C => 0x01
  | .Z => 0x02
  | .I => 0x04
  | .D => 0x08
  | .V => 0x40
  | .N => 0x80

/-- `M_B` of R41, the Break bit. -/
def maskB : Byte := 0x10

/-- `M_1` of R41, the bit that is always 1. -/
def mask1 : Byte := 0x20

/-- `test(P, f)` of R41. -/
def test (p : Byte) (f : Flag) : Bool := (p &&& f.mask) != 0

/-- R42. -/
def setCarry (p : Byte) : Byte := p ||| 0x01 ||| 0x20
/-- R43. -/
def clearCarry (p : Byte) : Byte := (p &&& 0xFE) ||| 0x20
/-- R44. -/
def setZero (p : Byte) : Byte := p ||| 0x02 ||| 0x20
/-- R45. -/
def clearZero (p : Byte) : Byte := (p &&& 0xFD) ||| 0x20
/-- R46. -/
def setOverflow (p : Byte) : Byte := p ||| 0x40 ||| 0x20
/-- R47. -/
def clearOverflow (p : Byte) : Byte := (p &&& 0xBF) ||| 0x20
/-- R48. -/
def setNegative (p : Byte) : Byte := p ||| 0x80 ||| 0x20
/-- R49. -/
def clearNegative (p : Byte) : Byte := (p &&& 0x7F) ||| 0x20
/-- R50. -/
def setInterrupt (p : Byte) : Byte := p ||| 0x04 ||| 0x20
/-- R50. -/
def clearInterrupt (p : Byte) : Byte := (p &&& 0xFB) ||| 0x20
/-- R50. -/
def setDecimal (p : Byte) : Byte := p ||| 0x08 ||| 0x20
/-- R50. -/
def clearDecimal (p : Byte) : Byte := (p &&& 0xF7) ||| 0x20

/-- The `set_` function of a flag. -/
def Flag.set : Flag → Byte → Byte
  | .C => setCarry
  | .Z => setZero
  | .I => setInterrupt
  | .D => setDecimal
  | .V => setOverflow
  | .N => setNegative

/-- The `clear_` function of a flag. -/
def Flag.clear : Flag → Byte → Byte
  | .C => clearCarry
  | .Z => clearZero
  | .I => clearInterrupt
  | .D => clearDecimal
  | .V => clearOverflow
  | .N => clearNegative

/-- `assign(P, f, b)` of R51, written `P.f <- b` in the instruction rules. -/
def assign (p : Byte) (f : Flag) (b : Bool) : Byte := if b then f.set p else f.clear p

/-- `setZN(P, v)` of R52. -/
def setZN (p v : Byte) : Byte := assign (assign p .Z (v == 0)) .N v.msb

/-- The carry flag as a number, `c` of R70, R71, R79, R80. -/
def carryIn (p : Byte) : Nat := if test p .C then 1 else 0

/-- The 9-bit sum `s` of R70. -/
def adcSum (a v : Byte) (c : Nat) : Nat := a.toNat + v.toNat + c

/-- The result `r` of R70. -/
def adcResult (a v : Byte) (c : Nat) : Byte := BitVec.ofNat 8 (adcSum a v c)

/-- `P.V` of R70: `a` and `v` have the same sign and `r` has the other. -/
def adcOverflow (a v r : Byte) : Bool := ((a ^^^ r) &&& (v ^^^ r) &&& 0x80) != 0

/-- The status byte after an addition (R70). -/
def adcFlags (p a v : Byte) : Byte :=
  let c := carryIn p
  let r := adcResult a v c
  setZN (assign (assign p .C (decide (adcSum a v c > 255))) .V (adcOverflow a v r)) r

/-- The status byte after BIT (R76): Z from the AND, V and N from the operand itself. -/
def bitFlags (p a v : Byte) : Byte :=
  assign (assign (assign p .Z ((a &&& v) == 0)) .V (v.getLsbD 6)) .N (v.getLsbD 7)

/-- The status byte after `compare(reg, v)` (`45_compare_incdec.md`, section 1): N is "register < operand". -/
def compareFlags (p reg v : Byte) : Byte :=
  assign (assign (assign p .C (decide (reg.toNat ≥ v.toNat))) .Z (reg == v)) .N (decide (reg.toNat < v.toNat))

/-- The status byte after a shift or rotate with result `r` and shifted-out bit `out` (R77 to R80). -/
def shiftFlags (p r : Byte) (out : Bool) : Byte := setZN (assign p .C out) r

/-- ASL (R77): result and status byte. -/
def aslByte (v p : Byte) : Byte × Byte :=
  let r := v <<< 1
  (r, shiftFlags p r (v.getLsbD 7))

/-- LSR (R78): result and status byte. -/
def lsrByte (v p : Byte) : Byte × Byte :=
  let r := v >>> 1
  (r, shiftFlags p r (v.getLsbD 0))

/-- ROL (R79): result and status byte; the old carry enters bit 0. -/
def rolByte (v p : Byte) : Byte × Byte :=
  let r := (v <<< 1) ||| BitVec.ofNat 8 (carryIn p)
  (r, shiftFlags p r (v.getLsbD 7))

/-- ROR (R80): result and status byte; the old carry enters bit 7. -/
def rorByte (v p : Byte) : Byte × Byte :=
  let r := (v >>> 1) ||| (BitVec.ofNat 8 (carryIn p) <<< 7)
  (r, shiftFlags p r (v.getLsbD 0))

/-- DEC (R85): result and status byte. -/
def decByte (v p : Byte) : Byte × Byte := (v - 1, setZN p (v - 1))

/-- INC (R86): result and status byte. -/
def incByte (v p : Byte) : Byte × Byte := (v + 1, setZN p (v + 1))

end Sys2Proof.Machine
end

