-- ==== Sys2Proof/Machine/State.lean ====
section
/-! DEFINITION. The state of the machine (`10_state.md` R9 to R19), the reasons it can stop, and reset
(`70_reset_and_hazards.md` R155). -/

namespace Sys2Proof.Machine

/-- The faults of `60_exceptions.md` R142, the same type in the state (`10_state.md` R17, `fault`) and in the
host's outcome. `AddressOutOfRange` is never raised (R146) and has no constructor (log 8). -/
inductive Fault where
  /-- Decode found no row for the byte `op` fetched at `addr` (R143). Raised by the dispatch loop, never by a
  meaning. Safe: it is the spec's own fault, and the machine stops where the spec stops it. -/
  | unimplementedOpcode (op : Byte) (addr : Addr)
  /-- A push with too few free slots (R144). Raised by PHA, PHP, JSR, BRK. Safe: the spec's own fault. -/
  | stackOverflow
  /-- A pop with too few bytes on the stack (R145). Raised by PLA, PLP, RTS, RTI. Safe: the spec's own fault. -/
  | stackUnderflow
  deriving DecidableEq, Repr

/-- Why an instruction would have no meaning. -/
inductive Refusal where
  /-- An instruction without a meaning. No arm of `exec` answers it any more. Safe. -/
  | notModelled (mnemonic : String)
  deriving DecidableEq, Repr

/-- The two states of the dispatch loop (`10_state.md` R17, `49_dispatch_loop.md` R137). `run` and `fault` of
R17 are one field, since `fault` is none exactly while the loop is in Fetch (log 7). -/
inductive RunState where
  | fetch
  | halted (f : Fault)
  deriving DecidableEq, Repr

/-- Bytes by address in one canonical form: addresses strictly rising, no entry equal to what an unlisted address
reads as (log 16). Used for `memory` (R15) and for the stack buffer (R12). -/
abbrev Memory := List Host.Cell

/-- The state of the machine: everything `10_state.md` lists, and nothing else (R18). -/
structure State where
  /-- The accumulator (R9). -/
  A : Byte
  /-- Index register X (R9). -/
  X : Byte
  /-- Index register Y (R9). -/
  Y : Byte
  /-- The status register (R10): bit 0 C, 1 Z, 2 I, 3 D, 4 B, 5 always 1, 6 V, 7 N. -/
  P : Byte
  /-- The stack index, `stack_head` (R12). -/
  S : Byte
  /-- The stack buffer, 256 bytes apart from memory (R12). -/
  stack : Memory
  /-- The program counter (R14). -/
  pc : Addr
  /-- Main memory, 65536 bytes (R15). -/
  memory : Memory
  /-- Elapsed cycles (R16). -/
  cycle : Nat
  /-- The dispatch loop's state and the recorded fault (R17). -/
  run : RunState
  deriving DecidableEq, Repr

/-- `fault` of R17: none while the loop is in Fetch. -/
def State.fault (s : State) : Option Fault :=
  match s.run with
  | .fetch => none
  | .halted f => some f

/-- Reset is construction (R155, R19) from the three open arguments `ENTRY`, `MEM_INIT`, `STACK_INIT` (R5). -/
def State.construct (entry : Addr) (memInit stackInit : Memory) : State :=
  { A := 0x00, X := 0x00, Y := 0x00, P := 0x24, S := 0x00, stack := stackInit, pc := entry,
    memory := memInit, cycle := 0, run := .fetch }

/-- The machine right after reset, with the three arguments the model names (logs 1, 2, 3). -/
def State.reset : State := State.construct Config.entry [] []

end Sys2Proof.Machine
end

