-- ==== Sys2Proof/Machine/Ops.lean ====
section
/-! DEFINITION. The named operations over memory, the stack buffer and the registers: the memory primitives of
`20_memory.md` R21, the stack primitives of R27, raising a fault (`60_exceptions.md` R147), the program counter
increment and the cycle counter (`49_dispatch_loop.md` R135, R136), BRK's entry and RTI's return
(`46_control_transfer.md` R104, R105), and the fetch of an instruction's bytes (R131, R133). -/

namespace Sys2Proof.Machine

/-! ### Bytes by address -/

/-- The byte at `a`; an unlisted address reads as `Config.unlistedByte`. -/
def Memory.read : Memory → Nat → Byte
  | [], _ => Config.unlistedByte
  | (b, v) :: m, a => if b = a then v else Memory.read m a

/-- Stores `v` at `a`, keeping the canonical form. -/
def Memory.write : Memory → Nat → Byte → Memory
  | [], a, v => if v = Config.unlistedByte then [] else [(a, v)]
  | (b, w) :: m, a, v =>
    if a < b then (if v = Config.unlistedByte then (b, w) :: m else (a, v) :: (b, w) :: m)
    else if a = b then (if v = Config.unlistedByte then m else (a, v) :: m)
    else (b, w) :: Memory.write m a v

/-- Every address of `m` is above `a`. -/
def Memory.above (a : Nat) : Memory → Bool
  | [] => true
  | (b, _) :: m => decide (a < b) && Memory.above a m

/-- The canonical form: addresses strictly rising, no entry equal to what an unlisted address reads as. -/
def Memory.wf : Memory → Bool
  | [] => true
  | (b, v) :: m => decide (v ≠ Config.unlistedByte) && Memory.above b m && Memory.wf m

/-- Every address of `m` is below `n`: 65536 for memory (R15), 256 for the stack buffer (R12). -/
def Memory.below (n : Nat) : Memory → Bool
  | [] => true
  | (b, _) :: m => decide (b < n) && Memory.below n m

/-- `MemRead(a, 1)` (R21). -/
def State.memRead (s : State) (a : Addr) : Byte := s.memory.read a.toNat

/-- `MemWrite(a, 1, v)` (R21). -/
def State.memWrite (s : State) (a : Addr) (v : Byte) : State :=
  { s with memory := s.memory.write a.toNat v }

/-- `stack[i]` (R12). -/
def State.stackRead (s : State) (i : Byte) : Byte := s.stack.read i.toNat

/-! ### Address arithmetic -/

/-- `zext_16(b)` of R6: an address in page 0. -/
def zext16 (b : Byte) : Addr := b.setWidth 16

/-- `sext_16(b)` of R6. -/
def sext16 (b : Byte) : Addr := if b.toNat < 128 then zext16 b else zext16 b + 0xFF00

/-- The word at the zero-page pointer `z`: low byte at `z`, high byte at `(z + 1) mod 256` (R62, R63, R22). -/
def State.zeroPageWord (s : State) (z : Byte) : Addr :=
  wordOf (s.memRead (zext16 (z + 1))) (s.memRead (zext16 z))

/-! ### Register writes -/

/-- `A <- v; P <- setZN(P, v)` (R73 to R75, R107, R112, R113, R124). -/
def State.loadA (s : State) (v : Byte) : State := { s with A := v, P := setZN s.P v }

/-- `X <- v; P <- setZN(P, v)` (R87, R89, R110, R114, R125). -/
def State.loadX (s : State) (v : Byte) : State := { s with X := v, P := setZN s.P v }

/-- `Y <- v; P <- setZN(P, v)` (R88, R90, R111, R126). -/
def State.loadY (s : State) (v : Byte) : State := { s with Y := v, P := setZN s.P v }

/-- `P <- p`. -/
def State.setP (s : State) (p : Byte) : State := { s with P := p }

/-! ### The end of a step -/

/-- The common ending of an instruction that does not assign `pc` (R135, R136). -/
def State.advance (s : State) (len cost : Nat) : State :=
  { s with pc := s.pc + BitVec.ofNat 16 len, cycle := s.cycle + cost }

/-- The ending of an instruction whose rule assigns `pc` (R135, R136). -/
def State.goto (s : State) (target : Addr) (cost : Nat) : State :=
  { s with pc := target, cycle := s.cycle + cost }

/-- `raise F` (R147, R137): `run` becomes Halted with the fault, everything else stays. -/
def State.raise (s : State) (f : Fault) : State := { s with run := .halted f }

/-- Commit (R134): a rule that completes gives its state; a rule that raised a fault leaves none of its writes,
and the loop halts in the state `s` at entry (log 5). -/
def commit (s : State) : Except Fault State → Host.Outcome State Fault Refusal
  | .ok t => .next t
  | .error f => .next (s.raise f)

/-! ### The stack -/

/-- `StackPush(v)` (R27). -/
def State.push (s : State) (v : Byte) : Except Fault State :=
  if s.S = 255 then .error .stackOverflow
  else .ok { s with S := s.S + 1, stack := s.stack.write (s.S + 1).toNat v }

/-- `StackPop()` (R27). -/
def State.pop (s : State) : Except Fault (Byte × State) :=
  if s.S = 0 then .error .stackUnderflow
  else .ok (s.stackRead s.S, { s with S := s.S - 1 })

/-- Pushes a word, high byte first (R102, R104). -/
def State.pushWord (s : State) (w : Addr) : Except Fault State :=
  (s.push (hi w)).bind (fun t => t.push (lo w))

/-- Pops a word, low byte first (R103, R105). -/
def State.popWord (s : State) : Except Fault (Addr × State) :=
  s.pop.bind (fun r => r.2.pop.bind (fun q => .ok (wordOf q.1 r.1, q.2)))

/-! ### The software trap and its return -/

/-- The word at the BRK vector: low byte at 0xFFFE, high byte at 0xFFFF (R104, R22, R25). -/
def State.brkVector (s : State) : Addr := wordOf (s.memRead 0xFFFF) (s.memRead 0xFFFE)

/-- Trap entry (R104, R150): pushes `pc + 2` and a copy of `P` with the Break bit set, sets I, and goes to
the vector. -/
def State.enterTrap (s : State) (cost : Nat) : Except Fault State :=
  (s.pushWord (s.pc + 2)).bind (fun t =>
    (t.push (s.P ||| maskB)).bind (fun u =>
      .ok ((u.setP (assign u.P .I true)).goto u.brkVector cost)))

/-- Trap return (R105, R151): pops `P`, forcing bit 5, then `pc`. -/
def State.leaveTrap (s : State) (cost : Nat) : Except Fault State :=
  s.pop.bind (fun r => r.2.popWord.bind (fun q =>
    .ok ((q.2.setP (r.1 ||| mask1)).goto q.1 cost)))

/-! ### Fetch -/

/-- The three bytes from `pc` on, addresses modulo 65536 (R131, R133). A shorter instruction ignores the later
ones; reads have no effect (R21, R24; log 10). -/
def State.fetchWindow (s : State) : List Byte :=
  [s.memRead s.pc, s.memRead (s.pc + 1), s.memRead (s.pc + 2)]

/-- Stores bytes at `a`, `a + 1`, … (modulo 65536): the host's hook, no operation of the machine (log 9). -/
def State.storeBytes (s : State) (a : Addr) : List Byte → State
  | [] => s
  | b :: bs => (s.memWrite a b).storeBytes (a + 1) bs

end Sys2Proof.Machine
end

