-- ==== Sys2Proof/Machine/Operands.lean ====
section
/-! DEFINITION. The addressing-mode resolver (`41_addressing_modes.md` R54 to R68). The record of R54 is
split by what an instruction may use: a memory operand has an effective address and a page-crossed bit (`kind` = Address), a
readable operand is a memory operand or the immediate value (`kind` = Value), a read-modify-write place is a memory
operand or the accumulator (`kind` = AccumulatorOperand), and the two modes of `kind` = Target give a
jump target. Implied (`kind` = None) has nothing to resolve. -/

namespace Sys2Proof.Machine

/-- The eight modes that name a byte of memory, with their operand. -/
inductive MemOperand where
  | zeroPage (b : Byte)
  | zeroPageX (b : Byte)
  | zeroPageY (b : Byte)
  | absolute (w : Addr)
  | absoluteX (w : Addr)
  | absoluteY (w : Addr)
  | indirectX (b : Byte)
  | indirectY (b : Byte)
  deriving DecidableEq, Repr

/-- The mode of R36 that the operand has. -/
def MemOperand.mode : MemOperand → Mode
  | .zeroPage _ => .zeroPage
  | .zeroPageX _ => .zeroPageX
  | .zeroPageY _ => .zeroPageY
  | .absolute _ => .absolute
  | .absoluteX _ => .absoluteX
  | .absoluteY _ => .absoluteY
  | .indirectX _ => .indirectX
  | .indirectY _ => .indirectY

/-- The effective address `ea` (R56 to R63). -/
def MemOperand.ea (s : State) : MemOperand → Addr
  | .zeroPage b => zext16 b
  | .zeroPageX b => zext16 (b + s.X)
  | .zeroPageY b => zext16 (b + s.Y)
  | .absolute w => w
  | .absoluteX w => w + zext16 s.X
  | .absoluteY w => w + zext16 s.Y
  | .indirectX b => s.zeroPageWord (b + s.X)
  | .indirectY b => s.zeroPageWord b + zext16 s.Y

/-- The base address of the three modes that can cross a page (R60, R61, R63). -/
def MemOperand.base? (s : State) : MemOperand → Option Addr
  | .absoluteX w => some w
  | .absoluteY w => some w
  | .indirectY b => some (s.zeroPageWord b)
  | .zeroPage _ | .zeroPageX _ | .zeroPageY _ | .absolute _ | .indirectX _ => none

/-- `crossed`: the high byte of the base differs from the high byte of the result; false in the other modes (R54). -/
def MemOperand.crossed (s : State) (o : MemOperand) : Bool :=
  match o.base? s with
  | some base => hi base != hi (o.ea s)
  | none => false

/-- A readable operand: Immediate (R55) or a memory operand. -/
inductive Operand where
  | immediate (v : Byte)
  | memory (m : MemOperand)
  deriving DecidableEq, Repr

/-- `operand()` of R54. -/
def Operand.value (s : State) : Operand → Byte
  | .immediate v => v
  | .memory m => s.memRead (m.ea s)

/-- `crossed` of R54. -/
def Operand.crossed (s : State) : Operand → Bool
  | .immediate _ => false
  | .memory m => m.crossed s

/-- The instruction's length with this operand (R33). -/
def Operand.length : Operand → Nat
  | .immediate _ => Mode.length .immediate
  | .memory m => m.mode.length

/-- What a read-modify-write instruction works on: Accumulator (R64) or a memory operand (R81). -/
inductive Place where
  | accumulator
  | memory (m : MemOperand)
  deriving DecidableEq, Repr

/-- `operand()` of R54 for a place. -/
def Place.value (s : State) : Place → Byte
  | .accumulator => s.A
  | .memory m => s.memRead (m.ea s)

/-- `writeback(r)` of R54. -/
def Place.writeback (s : State) (r : Byte) : Place → State
  | .accumulator => { s with A := r }
  | .memory m => s.memWrite (m.ea s) r

/-- The instruction's length with this place (R33). -/
def Place.length : Place → Nat
  | .accumulator => Mode.length .accumulator
  | .memory m => m.mode.length

/-- The target of Relative (R66), counted from the instruction after the branch. -/
def relativeTarget (s : State) (d : Byte) : Addr := s.pc + 2 + sext16 d

/-- The target of Indirect (R67): the high byte comes from the pointer's own page. -/
def indirectTarget (s : State) (ptr : Addr) : Addr :=
  wordOf (s.memRead (wordOf (hi ptr) (lo ptr + 1))) (s.memRead ptr)

end Sys2Proof.Machine
end

