-- ==== Sys2Proof/Machine/Shapes.lean ====
section
/-! DEFINITION. The few shapes an instruction has: what its rule does, and then the common ending of
`49_dispatch_loop.md` R135 and R136. The meanings of the family files are one line each over these. -/

namespace Sys2Proof.Machine

/-- The page-cross cycle of a row (R68): 1 if the row is marked `p` and the resolver reports a crossing. -/
def pageCrossCycle (extra : Extra) (crossed : Bool) : Nat :=
  if extra = .pageCross ∧ crossed then 1 else 0

/-- An instruction that reads an operand: `effect` is its rule, `cycles` and `extra` its row (R36). -/
def readInstr (effect : State → Byte → State) (o : Operand) (cycles : Nat) (extra : Extra) (s : State) :
    Host.Outcome State Fault Refusal :=
  .next ((effect s (o.value s)).advance o.length (cycles + pageCrossCycle extra (o.crossed s)))

/-- A store of the byte `v`; its cost is constant (R68, R127 to R129). -/
def storeInstr (v : Byte) (m : MemOperand) (cycles : Nat) (s : State) : Host.Outcome State Fault Refusal :=
  .next ((s.memWrite (m.ea s) v).advance m.mode.length cycles)

/-- A read-modify-write instruction (R81): `f` gives the result and the status byte from the operand and `P`. -/
def modifyInstr (f : Byte → Byte → Byte × Byte) (pl : Place) (cycles : Nat) (s : State) :
    Host.Outcome State Fault Refusal :=
  let r := f (pl.value s) s.P
  .next (((pl.writeback s r.1).setP r.2).advance pl.length cycles)

/-- An Implied instruction (R65) that changes registers only. -/
def impliedInstr (effect : State → State) (cycles : Nat) (s : State) : Host.Outcome State Fault Refusal :=
  .next ((effect s).advance (Mode.length .implied) cycles)

/-- A conditional branch (R91): base cost 2, one more if taken, one more still if the target's page differs from
the page of the instruction after the branch. -/
def branchInstr (cond : Bool) (d : Byte) (s : State) : Host.Outcome State Fault Refusal :=
  let next := s.pc + 2
  let target := relativeTarget s d
  if cond then .next (s.goto target (2 + 1 + (if hi target != hi next then 1 else 0)))
  else .next (s.advance (Mode.length .relative) 2)

end Sys2Proof.Machine
end

