-- ==== Sys2Proof/Machine/Arithmetic.lean ====
section
/-! DEFINITION. Arithmetic: ADC and SBC (`42_arithmetic.md` R70 to R72). `P.D` is not read (R72). -/

namespace Sys2Proof.Machine

/-- ADC's rule (R70): `A + v + C`. -/
def State.adc (s : State) (v : Byte) : State :=
  { s with A := adcResult s.A v (carryIn s.P), P := adcFlags s.P s.A v }

/-- SBC's rule (R71): ADC of the operand's complement. -/
def State.sbc (s : State) (v : Byte) : State := s.adc (v ^^^ 0xFF)

/-- ADC Immediate, 0x69: 2 cycles (R70, R55). -/
def execAdcImm (v : Byte) (s : State) : Host.Outcome State Fault Refusal :=
  readInstr State.adc (.immediate v) 2 .none s

/-- ADC Zero Page, 0x65: 3 cycles (R70, R56). -/
def execAdcZp (b : Byte) (s : State) : Host.Outcome State Fault Refusal :=
  readInstr State.adc (.memory (.zeroPage b)) 3 .none s

/-- ADC Zero Page,X, 0x75: 4 cycles (R70, R57). -/
def execAdcZpX (b : Byte) (s : State) : Host.Outcome State Fault Refusal :=
  readInstr State.adc (.memory (.zeroPageX b)) 4 .none s

/-- ADC Absolute, 0x6D: 4 cycles (R70, R59). -/
def execAdcAbs (w : Addr) (s : State) : Host.Outcome State Fault Refusal :=
  readInstr State.adc (.memory (.absolute w)) 4 .none s

/-- ADC Absolute,X, 0x7D: 4 cycles, +1 if the page is crossed (R70, R60). -/
def execAdcAbsX (w : Addr) (s : State) : Host.Outcome State Fault Refusal :=
  readInstr State.adc (.memory (.absoluteX w)) 4 .pageCross s

/-- ADC Absolute,Y, 0x79: 4 cycles, +1 if the page is crossed (R70, R61). -/
def execAdcAbsY (w : Addr) (s : State) : Host.Outcome State Fault Refusal :=
  readInstr State.adc (.memory (.absoluteY w)) 4 .pageCross s

/-- ADC Indirect,X, 0x61: 6 cycles (R70, R62). -/
def execAdcIndX (b : Byte) (s : State) : Host.Outcome State Fault Refusal :=
  readInstr State.adc (.memory (.indirectX b)) 6 .none s

/-- ADC Indirect,Y, 0x71: 5 cycles, +1 if the page is crossed (R70, R63). -/
def execAdcIndY (b : Byte) (s : State) : Host.Outcome State Fault Refusal :=
  readInstr State.adc (.memory (.indirectY b)) 5 .pageCross s

/-- SBC Immediate, 0xE9: 2 cycles (R71, R55). -/
def execSbcImm (v : Byte) (s : State) : Host.Outcome State Fault Refusal :=
  readInstr State.sbc (.immediate v) 2 .none s

/-- SBC Zero Page, 0xE5: 3 cycles (R71, R56). -/
def execSbcZp (b : Byte) (s : State) : Host.Outcome State Fault Refusal :=
  readInstr State.sbc (.memory (.zeroPage b)) 3 .none s

/-- SBC Zero Page,X, 0xF5: 4 cycles (R71, R57). -/
def execSbcZpX (b : Byte) (s : State) : Host.Outcome State Fault Refusal :=
  readInstr State.sbc (.memory (.zeroPageX b)) 4 .none s

/-- SBC Absolute, 0xED: 4 cycles (R71, R59). -/
def execSbcAbs (w : Addr) (s : State) : Host.Outcome State Fault Refusal :=
  readInstr State.sbc (.memory (.absolute w)) 4 .none s

/-- SBC Absolute,X, 0xFD: 4 cycles, +1 if the page is crossed (R71, R60). -/
def execSbcAbsX (w : Addr) (s : State) : Host.Outcome State Fault Refusal :=
  readInstr State.sbc (.memory (.absoluteX w)) 4 .pageCross s

/-- SBC Absolute,Y, 0xF9: 4 cycles, +1 if the page is crossed (R71, R61). -/
def execSbcAbsY (w : Addr) (s : State) : Host.Outcome State Fault Refusal :=
  readInstr State.sbc (.memory (.absoluteY w)) 4 .pageCross s

/-- SBC Indirect,X, 0xE1: 6 cycles (R71, R62). -/
def execSbcIndX (b : Byte) (s : State) : Host.Outcome State Fault Refusal :=
  readInstr State.sbc (.memory (.indirectX b)) 6 .none s

/-- SBC Indirect,Y, 0xF1: 5 cycles, +1 if the page is crossed (R71, R63). -/
def execSbcIndY (b : Byte) (s : State) : Host.Outcome State Fault Refusal :=
  readInstr State.sbc (.memory (.indirectY b)) 5 .pageCross s

end Sys2Proof.Machine
end

