-- ==== Sys2Proof/Machine/Compare.lean ====
section
/-! DEFINITION. Compares, increments and decrements: CMP, CPX, CPY, DEC, INC, DEX, DEY, INX, INY
(`45_compare_incdec.md` R82 to R90). -/

namespace Sys2Proof.Machine

/-- CMP's rule (R82): `compare(A, v)`. -/
def State.compareA (s : State) (v : Byte) : State := s.setP (compareFlags s.P s.A v)

/-- CPX's rule (R83): `compare(X, v)`. -/
def State.compareX (s : State) (v : Byte) : State := s.setP (compareFlags s.P s.X v)

/-- CPY's rule (R84): `compare(Y, v)`. -/
def State.compareY (s : State) (v : Byte) : State := s.setP (compareFlags s.P s.Y v)

/-- CMP Immediate, 0xC9: 2 cycles (R82, R55). -/
def execCmpImm (v : Byte) (s : State) : Host.Outcome State Fault Refusal :=
  readInstr State.compareA (.immediate v) 2 .none s

/-- CMP Zero Page, 0xC5: 3 cycles (R82, R56). -/
def execCmpZp (b : Byte) (s : State) : Host.Outcome State Fault Refusal :=
  readInstr State.compareA (.memory (.zeroPage b)) 3 .none s

/-- CMP Zero Page,X, 0xD5: 4 cycles (R82, R57). -/
def execCmpZpX (b : Byte) (s : State) : Host.Outcome State Fault Refusal :=
  readInstr State.compareA (.memory (.zeroPageX b)) 4 .none s

/-- CMP Absolute, 0xCD: 4 cycles (R82, R59). -/
def execCmpAbs (w : Addr) (s : State) : Host.Outcome State Fault Refusal :=
  readInstr State.compareA (.memory (.absolute w)) 4 .none s

/-- CMP Absolute,X, 0xDD: 4 cycles, +1 if the page is crossed (R82, R60). -/
def execCmpAbsX (w : Addr) (s : State) : Host.Outcome State Fault Refusal :=
  readInstr State.compareA (.memory (.absoluteX w)) 4 .pageCross s

/-- CMP Absolute,Y, 0xD9: 4 cycles, +1 if the page is crossed (R82, R61). -/
def execCmpAbsY (w : Addr) (s : State) : Host.Outcome State Fault Refusal :=
  readInstr State.compareA (.memory (.absoluteY w)) 4 .pageCross s

/-- CMP Indirect,X, 0xC1: 6 cycles (R82, R62). -/
def execCmpIndX (b : Byte) (s : State) : Host.Outcome State Fault Refusal :=
  readInstr State.compareA (.memory (.indirectX b)) 6 .none s

/-- CMP Indirect,Y, 0xD1: 5 cycles, +1 if the page is crossed (R82, R63). -/
def execCmpIndY (b : Byte) (s : State) : Host.Outcome State Fault Refusal :=
  readInstr State.compareA (.memory (.indirectY b)) 5 .pageCross s

/-- CPX Immediate, 0xE0: 2 cycles (R83, R55). -/
def execCpxImm (v : Byte) (s : State) : Host.Outcome State Fault Refusal :=
  readInstr State.compareX (.immediate v) 2 .none s

/-- CPX Zero Page, 0xE4: 3 cycles (R83, R56). -/
def execCpxZp (b : Byte) (s : State) : Host.Outcome State Fault Refusal :=
  readInstr State.compareX (.memory (.zeroPage b)) 3 .none s

/-- CPX Absolute, 0xEC: 4 cycles (R83, R59). -/
def execCpxAbs (w : Addr) (s : State) : Host.Outcome State Fault Refusal :=
  readInstr State.compareX (.memory (.absolute w)) 4 .none s

/-- CPY Immediate, 0xC0: 2 cycles (R84, R55). -/
def execCpyImm (v : Byte) (s : State) : Host.Outcome State Fault Refusal :=
  readInstr State.compareY (.immediate v) 2 .none s

/-- CPY Zero Page, 0xC4: 3 cycles (R84, R56). -/
def execCpyZp (b : Byte) (s : State) : Host.Outcome State Fault Refusal :=
  readInstr State.compareY (.memory (.zeroPage b)) 3 .none s

/-- CPY Absolute, 0xCC: 4 cycles (R84, R59). -/
def execCpyAbs (w : Addr) (s : State) : Host.Outcome State Fault Refusal :=
  readInstr State.compareY (.memory (.absolute w)) 4 .none s

/-- DEC Zero Page, 0xC6: 5 cycles (R85, R56). -/
def execDecZp (b : Byte) (s : State) : Host.Outcome State Fault Refusal :=
  modifyInstr decByte (.memory (.zeroPage b)) 5 s

/-- DEC Zero Page,X, 0xD6: 6 cycles (R85, R57). -/
def execDecZpX (b : Byte) (s : State) : Host.Outcome State Fault Refusal :=
  modifyInstr decByte (.memory (.zeroPageX b)) 6 s

/-- DEC Absolute, 0xCE: 6 cycles (R85, R59). -/
def execDecAbs (w : Addr) (s : State) : Host.Outcome State Fault Refusal :=
  modifyInstr decByte (.memory (.absolute w)) 6 s

/-- DEC Absolute,X, 0xDE: 7 cycles (R85, R60). -/
def execDecAbsX (w : Addr) (s : State) : Host.Outcome State Fault Refusal :=
  modifyInstr decByte (.memory (.absoluteX w)) 7 s

/-- INC Zero Page, 0xE6: 5 cycles (R86, R56). -/
def execIncZp (b : Byte) (s : State) : Host.Outcome State Fault Refusal :=
  modifyInstr incByte (.memory (.zeroPage b)) 5 s

/-- INC Zero Page,X, 0xF6: 6 cycles (R86, R57). -/
def execIncZpX (b : Byte) (s : State) : Host.Outcome State Fault Refusal :=
  modifyInstr incByte (.memory (.zeroPageX b)) 6 s

/-- INC Absolute, 0xEE: 6 cycles (R86, R59). -/
def execIncAbs (w : Addr) (s : State) : Host.Outcome State Fault Refusal :=
  modifyInstr incByte (.memory (.absolute w)) 6 s

/-- INC Absolute,X, 0xFE: 7 cycles (R86, R60). -/
def execIncAbsX (w : Addr) (s : State) : Host.Outcome State Fault Refusal :=
  modifyInstr incByte (.memory (.absoluteX w)) 7 s

/-- DEX Implied, 0xCA: 2 cycles (R87). -/
def execDex (s : State) : Host.Outcome State Fault Refusal :=
  impliedInstr (fun t => t.loadX (t.X - 1)) 2 s

/-- DEY Implied, 0x88: 2 cycles (R88). -/
def execDey (s : State) : Host.Outcome State Fault Refusal :=
  impliedInstr (fun t => t.loadY (t.Y - 1)) 2 s

/-- INX Implied, 0xE8: 2 cycles (R89). -/
def execInx (s : State) : Host.Outcome State Fault Refusal :=
  impliedInstr (fun t => t.loadX (t.X + 1)) 2 s

/-- INY Implied, 0xC8: 2 cycles (R90). -/
def execIny (s : State) : Host.Outcome State Fault Refusal :=
  impliedInstr (fun t => t.loadY (t.Y + 1)) 2 s

end Sys2Proof.Machine
end

