-- ==== Sys2Proof/Machine/Control.lean ====
section
/-! DEFINITION. Control transfer: the branches, JMP, JSR, RTS, BRK, RTI (`46_control_transfer.md` R91 to R105). -/

namespace Sys2Proof.Machine

/-- BCC Relative, 0x90: 2 cycles, +1 if taken, +1 more if the target is on another page (R92, R66). -/
def execBcc (d : Byte) (s : State) : Host.Outcome State Fault Refusal :=
  branchInstr (!test s.P .C) d s

/-- BCS Relative, 0xB0: 2 cycles, +1 if taken, +1 more if the target is on another page (R93, R66). -/
def execBcs (d : Byte) (s : State) : Host.Outcome State Fault Refusal :=
  branchInstr (test s.P .C) d s

/-- BEQ Relative, 0xF0: 2 cycles, +1 if taken, +1 more if the target is on another page (R94, R66). -/
def execBeq (d : Byte) (s : State) : Host.Outcome State Fault Refusal :=
  branchInstr (test s.P .Z) d s

/-- BNE Relative, 0xD0: 2 cycles, +1 if taken, +1 more if the target is on another page (R95, R66). -/
def execBne (d : Byte) (s : State) : Host.Outcome State Fault Refusal :=
  branchInstr (!test s.P .Z) d s

/-- BMI Relative, 0x30: 2 cycles, +1 if taken, +1 more if the target is on another page (R96, R66). -/
def execBmi (d : Byte) (s : State) : Host.Outcome State Fault Refusal :=
  branchInstr (test s.P .N) d s

/-- BPL Relative, 0x10: 2 cycles, +1 if taken, +1 more if the target is on another page (R97, R66). -/
def execBpl (d : Byte) (s : State) : Host.Outcome State Fault Refusal :=
  branchInstr (!test s.P .N) d s

/-- BVC Relative, 0x50: 2 cycles, +1 if taken, +1 more if the target is on another page (R98, R66). -/
def execBvc (d : Byte) (s : State) : Host.Outcome State Fault Refusal :=
  branchInstr (!test s.P .V) d s

/-- BVS Relative, 0x70: 2 cycles, +1 if taken, +1 more if the target is on another page (R99, R66). -/
def execBvs (d : Byte) (s : State) : Host.Outcome State Fault Refusal :=
  branchInstr (test s.P .V) d s

/-- JMP Absolute, 0x4C: 3 cycles (R100, R59). -/
def execJmpAbs (w : Addr) (s : State) : Host.Outcome State Fault Refusal :=
  .next (s.goto w 3)

/-- JMP Indirect, 0x6C: 5 cycles (R101, R67). -/
def execJmpInd (w : Addr) (s : State) : Host.Outcome State Fault Refusal :=
  .next (s.goto (indirectTarget s w) 5)

/-- JSR Absolute, 0x20: 6 cycles (R102, R59). -/
def execJsr (w : Addr) (s : State) : Host.Outcome State Fault Refusal :=
  commit s ((s.pushWord (s.pc + 2)).bind (fun t => .ok (t.goto w 6)))

/-- RTS Implied, 0x60: 6 cycles (R103). -/
def execRts (s : State) : Host.Outcome State Fault Refusal :=
  commit s (s.popWord.bind (fun q => .ok (q.2.goto (q.1 + 1) 6)))

/-- BRK Implied, 0x00: 7 cycles (R104). -/
def execBrk (s : State) : Host.Outcome State Fault Refusal :=
  commit s (s.enterTrap 7)

/-- RTI Implied, 0x40: 6 cycles (R105). -/
def execRti (s : State) : Host.Outcome State Fault Refusal :=
  commit s (s.leaveTrap 6)

end Sys2Proof.Machine
end

