-- ==== Sys2Proof/Machine/FlagOps.lean ====
section
/-! DEFINITION. Status-flag operations and NOP (`47_stack_transfer_flag_nop.md` R116 to R123). -/

namespace Sys2Proof.Machine

/-- CLC Implied, 0x18: 2 cycles (R116). -/
def execClc (s : State) : Host.Outcome State Fault Refusal :=
  impliedInstr (fun t => t.setP (clearCarry t.P)) 2 s

/-- SEC Implied, 0x38: 2 cycles (R117). -/
def execSec (s : State) : Host.Outcome State Fault Refusal :=
  impliedInstr (fun t => t.setP (setCarry t.P)) 2 s

/-- CLI Implied, 0x58: 2 cycles (R118). -/
def execCli (s : State) : Host.Outcome State Fault Refusal :=
  impliedInstr (fun t => t.setP (clearInterrupt t.P)) 2 s

/-- SEI Implied, 0x78: 2 cycles (R119). -/
def execSei (s : State) : Host.Outcome State Fault Refusal :=
  impliedInstr (fun t => t.setP (setInterrupt t.P)) 2 s

/-- CLV Implied, 0xB8: 2 cycles (R120). -/
def execClv (s : State) : Host.Outcome State Fault Refusal :=
  impliedInstr (fun t => t.setP (clearOverflow t.P)) 2 s

/-- CLD Implied, 0xD8: 2 cycles (R121). -/
def execCld (s : State) : Host.Outcome State Fault Refusal :=
  impliedInstr (fun t => t.setP (clearDecimal t.P)) 2 s

/-- SED Implied, 0xF8: 2 cycles (R122). -/
def execSed (s : State) : Host.Outcome State Fault Refusal :=
  impliedInstr (fun t => t.setP (setDecimal t.P)) 2 s

/-- NOP Implied, 0xEA: 2 cycles (R123). -/
def execNop (s : State) : Host.Outcome State Fault Refusal :=
  impliedInstr (fun t => t) 2 s

/-- An illegal NOP (R38): NOP's rule with the cost its `ILLEGAL_NOPS` entry gives (R123). -/
def execNopIllegal (cyc : Nat) (s : State) : Host.Outcome State Fault Refusal :=
  impliedInstr (fun t => t) cyc s

end Sys2Proof.Machine
end

