-- ==== Sys2Proof/Machine/LoadStore.lean ====
section
/-! DEFINITION. Loads and stores: LDA, LDX, LDY, STA, STX, STY (`48_load_store.md` R124 to R129). -/

namespace Sys2Proof.Machine

/-- LDA Immediate, 0xA9: 2 cycles (R124, R55). -/
def execLdaImm (v : Byte) (s : State) : Host.Outcome State Fault Refusal :=
  readInstr State.loadA (.immediate v) 2 .none s

/-- LDA Zero Page, 0xA5: 3 cycles (R124, R56). -/
def execLdaZp (b : Byte) (s : State) : Host.Outcome State Fault Refusal :=
  readInstr State.loadA (.memory (.zeroPage b)) 3 .none s

/-- LDA Zero Page,X, 0xB5: 4 cycles (R124, R57). -/
def execLdaZpX (b : Byte) (s : State) : Host.Outcome State Fault Refusal :=
  readInstr State.loadA (.memory (.zeroPageX b)) 4 .none s

/-- LDA Absolute, 0xAD: 4 cycles (R124, R59). -/
def execLdaAbs (w : Addr) (s : State) : Host.Outcome State Fault Refusal :=
  readInstr State.loadA (.memory (.absolute w)) 4 .none s

/-- LDA Absolute,X, 0xBD: 4 cycles, +1 if the page is crossed (R124, R60). -/
def execLdaAbsX (w : Addr) (s : State) : Host.Outcome State Fault Refusal :=
  readInstr State.loadA (.memory (.absoluteX w)) 4 .pageCross s

/-- LDA Absolute,Y, 0xB9: 4 cycles, +1 if the page is crossed (R124, R61). -/
def execLdaAbsY (w : Addr) (s : State) : Host.Outcome State Fault Refusal :=
  readInstr State.loadA (.memory (.absoluteY w)) 4 .pageCross s

/-- LDA Indirect,X, 0xA1: 6 cycles (R124, R62). -/
def execLdaIndX (b : Byte) (s : State) : Host.Outcome State Fault Refusal :=
  readInstr State.loadA (.memory (.indirectX b)) 6 .none s

/-- LDA Indirect,Y, 0xB1: 5 cycles, +1 if the page is crossed (R124, R63). -/
def execLdaIndY (b : Byte) (s : State) : Host.Outcome State Fault Refusal :=
  readInstr State.loadA (.memory (.indirectY b)) 5 .pageCross s

/-- LDX Immediate, 0xA2: 2 cycles (R125, R55). -/
def execLdxImm (v : Byte) (s : State) : Host.Outcome State Fault Refusal :=
  readInstr State.loadX (.immediate v) 2 .none s

/-- LDX Zero Page, 0xA6: 3 cycles (R125, R56). -/
def execLdxZp (b : Byte) (s : State) : Host.Outcome State Fault Refusal :=
  readInstr State.loadX (.memory (.zeroPage b)) 3 .none s

/-- LDX Zero Page,Y, 0xB6: 4 cycles (R125, R58). -/
def execLdxZpY (b : Byte) (s : State) : Host.Outcome State Fault Refusal :=
  readInstr State.loadX (.memory (.zeroPageY b)) 4 .none s

/-- LDX Absolute, 0xAE: 4 cycles (R125, R59). -/
def execLdxAbs (w : Addr) (s : State) : Host.Outcome State Fault Refusal :=
  readInstr State.loadX (.memory (.absolute w)) 4 .none s

/-- LDX Absolute,Y, 0xBE: 4 cycles, +1 if the page is crossed (R125, R61). -/
def execLdxAbsY (w : Addr) (s : State) : Host.Outcome State Fault Refusal :=
  readInstr State.loadX (.memory (.absoluteY w)) 4 .pageCross s

/-- LDY Immediate, 0xA0: 2 cycles (R126, R55). -/
def execLdyImm (v : Byte) (s : State) : Host.Outcome State Fault Refusal :=
  readInstr State.loadY (.immediate v) 2 .none s

/-- LDY Zero Page, 0xA4: 3 cycles (R126, R56). -/
def execLdyZp (b : Byte) (s : State) : Host.Outcome State Fault Refusal :=
  readInstr State.loadY (.memory (.zeroPage b)) 3 .none s

/-- LDY Zero Page,X, 0xB4: 4 cycles (R126, R57). -/
def execLdyZpX (b : Byte) (s : State) : Host.Outcome State Fault Refusal :=
  readInstr State.loadY (.memory (.zeroPageX b)) 4 .none s

/-- LDY Absolute, 0xAC: 4 cycles (R126, R59). -/
def execLdyAbs (w : Addr) (s : State) : Host.Outcome State Fault Refusal :=
  readInstr State.loadY (.memory (.absolute w)) 4 .none s

/-- LDY Absolute,X, 0xBC: 4 cycles, +1 if the page is crossed (R126, R60). -/
def execLdyAbsX (w : Addr) (s : State) : Host.Outcome State Fault Refusal :=
  readInstr State.loadY (.memory (.absoluteX w)) 4 .pageCross s

/-- STA Zero Page, 0x85: 3 cycles (R127, R56). -/
def execStaZp (b : Byte) (s : State) : Host.Outcome State Fault Refusal :=
  storeInstr s.A (.zeroPage b) 3 s

/-- STA Zero Page,X, 0x95: 4 cycles (R127, R57). -/
def execStaZpX (b : Byte) (s : State) : Host.Outcome State Fault Refusal :=
  storeInstr s.A (.zeroPageX b) 4 s

/-- STA Absolute, 0x8D: 4 cycles (R127, R59). -/
def execStaAbs (w : Addr) (s : State) : Host.Outcome State Fault Refusal :=
  storeInstr s.A (.absolute w) 4 s

/-- STA Absolute,X, 0x9D: 5 cycles (R127, R60). -/
def execStaAbsX (w : Addr) (s : State) : Host.Outcome State Fault Refusal :=
  storeInstr s.A (.absoluteX w) 5 s

/-- STA Absolute,Y, 0x99: 5 cycles (R127, R61). -/
def execStaAbsY (w : Addr) (s : State) : Host.Outcome State Fault Refusal :=
  storeInstr s.A (.absoluteY w) 5 s

/-- STA Indirect,X, 0x81: 6 cycles (R127, R62). -/
def execStaIndX (b : Byte) (s : State) : Host.Outcome State Fault Refusal :=
  storeInstr s.A (.indirectX b) 6 s

/-- STA Indirect,Y, 0x91: 6 cycles (R127, R63). -/
def execStaIndY (b : Byte) (s : State) : Host.Outcome State Fault Refusal :=
  storeInstr s.A (.indirectY b) 6 s

/-- STX Zero Page, 0x86: 3 cycles (R128, R56). -/
def execStxZp (b : Byte) (s : State) : Host.Outcome State Fault Refusal :=
  storeInstr s.X (.zeroPage b) 3 s

/-- STX Zero Page,Y, 0x96: 4 cycles (R128, R58). -/
def execStxZpY (b : Byte) (s : State) : Host.Outcome State Fault Refusal :=
  storeInstr s.X (.zeroPageY b) 4 s

/-- STX Absolute, 0x8E: 4 cycles (R128, R59). -/
def execStxAbs (w : Addr) (s : State) : Host.Outcome State Fault Refusal :=
  storeInstr s.X (.absolute w) 4 s

/-- STY Zero Page, 0x84: 3 cycles (R129, R56). -/
def execStyZp (b : Byte) (s : State) : Host.Outcome State Fault Refusal :=
  storeInstr s.Y (.zeroPage b) 3 s

/-- STY Zero Page,X, 0x94: 4 cycles (R129, R57). -/
def execStyZpX (b : Byte) (s : State) : Host.Outcome State Fault Refusal :=
  storeInstr s.Y (.zeroPageX b) 4 s

/-- STY Absolute, 0x8C: 4 cycles (R129, R59). -/
def execStyAbs (w : Addr) (s : State) : Host.Outcome State Fault Refusal :=
  storeInstr s.Y (.absolute w) 4 s

end Sys2Proof.Machine
end

