-- ==== Sys2Proof/Machine/Logical.lean ====
section
/-! DEFINITION. Logic: AND, ORA, EOR, BIT (`43_logical_bit.md` R73 to R76). -/

namespace Sys2Proof.Machine

/-- AND's rule (R73). -/
def State.andA (s : State) (v : Byte) : State := s.loadA (s.A &&& v)

/-- ORA's rule (R74). -/
def State.orA (s : State) (v : Byte) : State := s.loadA (s.A ||| v)

/-- EOR's rule (R75). -/
def State.eorA (s : State) (v : Byte) : State := s.loadA (s.A ^^^ v)

/-- BIT's rule (R76): flags only. -/
def State.bitTest (s : State) (v : Byte) : State := s.setP (bitFlags s.P s.A v)

/-- AND Immediate, 0x29: 2 cycles (R73, R55). -/
def execAndImm (v : Byte) (s : State) : Host.Outcome State Fault Refusal :=
  readInstr State.andA (.immediate v) 2 .none s

/-- AND Zero Page, 0x25: 3 cycles (R73, R56). -/
def execAndZp (b : Byte) (s : State) : Host.Outcome State Fault Refusal :=
  readInstr State.andA (.memory (.zeroPage b)) 3 .none s

/-- AND Zero Page,X, 0x35: 4 cycles (R73, R57). -/
def execAndZpX (b : Byte) (s : State) : Host.Outcome State Fault Refusal :=
  readInstr State.andA (.memory (.zeroPageX b)) 4 .none s

/-- AND Absolute, 0x2D: 4 cycles (R73, R59). -/
def execAndAbs (w : Addr) (s : State) : Host.Outcome State Fault Refusal :=
  readInstr State.andA (.memory (.absolute w)) 4 .none s

/-- AND Absolute,X, 0x3D: 4 cycles, +1 if the page is crossed (R73, R60). -/
def execAndAbsX (w : Addr) (s : State) : Host.Outcome State Fault Refusal :=
  readInstr State.andA (.memory (.absoluteX w)) 4 .pageCross s

/-- AND Absolute,Y, 0x39: 4 cycles, +1 if the page is crossed (R73, R61). -/
def execAndAbsY (w : Addr) (s : State) : Host.Outcome State Fault Refusal :=
  readInstr State.andA (.memory (.absoluteY w)) 4 .pageCross s

/-- AND Indirect,X, 0x21: 6 cycles (R73, R62). -/
def execAndIndX (b : Byte) (s : State) : Host.Outcome State Fault Refusal :=
  readInstr State.andA (.memory (.indirectX b)) 6 .none s

/-- AND Indirect,Y, 0x31: 5 cycles, +1 if the page is crossed (R73, R63). -/
def execAndIndY (b : Byte) (s : State) : Host.Outcome State Fault Refusal :=
  readInstr State.andA (.memory (.indirectY b)) 5 .pageCross s

/-- ORA Immediate, 0x09: 2 cycles (R74, R55). -/
def execOraImm (v : Byte) (s : State) : Host.Outcome State Fault Refusal :=
  readInstr State.orA (.immediate v) 2 .none s

/-- ORA Zero Page, 0x05: 3 cycles (R74, R56). -/
def execOraZp (b : Byte) (s : State) : Host.Outcome State Fault Refusal :=
  readInstr State.orA (.memory (.zeroPage b)) 3 .none s

/-- ORA Zero Page,X, 0x15: 4 cycles (R74, R57). -/
def execOraZpX (b : Byte) (s : State) : Host.Outcome State Fault Refusal :=
  readInstr State.orA (.memory (.zeroPageX b)) 4 .none s

/-- ORA Absolute, 0x0D: 4 cycles (R74, R59). -/
def execOraAbs (w : Addr) (s : State) : Host.Outcome State Fault Refusal :=
  readInstr State.orA (.memory (.absolute w)) 4 .none s

/-- ORA Absolute,X, 0x1D: 4 cycles, +1 if the page is crossed (R74, R60). -/
def execOraAbsX (w : Addr) (s : State) : Host.Outcome State Fault Refusal :=
  readInstr State.orA (.memory (.absoluteX w)) 4 .pageCross s

/-- ORA Absolute,Y, 0x19: 4 cycles, +1 if the page is crossed (R74, R61). -/
def execOraAbsY (w : Addr) (s : State) : Host.Outcome State Fault Refusal :=
  readInstr State.orA (.memory (.absoluteY w)) 4 .pageCross s

/-- ORA Indirect,X, 0x01: 6 cycles (R74, R62). -/
def execOraIndX (b : Byte) (s : State) : Host.Outcome State Fault Refusal :=
  readInstr State.orA (.memory (.indirectX b)) 6 .none s

/-- ORA Indirect,Y, 0x11: 5 cycles, +1 if the page is crossed (R74, R63). -/
def execOraIndY (b : Byte) (s : State) : Host.Outcome State Fault Refusal :=
  readInstr State.orA (.memory (.indirectY b)) 5 .pageCross s

/-- EOR Immediate, 0x49: 2 cycles (R75, R55). -/
def execEorImm (v : Byte) (s : State) : Host.Outcome State Fault Refusal :=
  readInstr State.eorA (.immediate v) 2 .none s

/-- EOR Zero Page, 0x45: 3 cycles (R75, R56). -/
def execEorZp (b : Byte) (s : State) : Host.Outcome State Fault Refusal :=
  readInstr State.eorA (.memory (.zeroPage b)) 3 .none s

/-- EOR Zero Page,X, 0x55: 4 cycles (R75, R57). -/
def execEorZpX (b : Byte) (s : State) : Host.Outcome State Fault Refusal :=
  readInstr State.eorA (.memory (.zeroPageX b)) 4 .none s

/-- EOR Absolute, 0x4D: 4 cycles (R75, R59). -/
def execEorAbs (w : Addr) (s : State) : Host.Outcome State Fault Refusal :=
  readInstr State.eorA (.memory (.absolute w)) 4 .none s

/-- EOR Absolute,X, 0x5D: 4 cycles, +1 if the page is crossed (R75, R60). -/
def execEorAbsX (w : Addr) (s : State) : Host.Outcome State Fault Refusal :=
  readInstr State.eorA (.memory (.absoluteX w)) 4 .pageCross s

/-- EOR Absolute,Y, 0x59: 4 cycles, +1 if the page is crossed (R75, R61). -/
def execEorAbsY (w : Addr) (s : State) : Host.Outcome State Fault Refusal :=
  readInstr State.eorA (.memory (.absoluteY w)) 4 .pageCross s

/-- EOR Indirect,X, 0x41: 6 cycles (R75, R62). -/
def execEorIndX (b : Byte) (s : State) : Host.Outcome State Fault Refusal :=
  readInstr State.eorA (.memory (.indirectX b)) 6 .none s

/-- EOR Indirect,Y, 0x51: 5 cycles, +1 if the page is crossed (R75, R63). -/
def execEorIndY (b : Byte) (s : State) : Host.Outcome State Fault Refusal :=
  readInstr State.eorA (.memory (.indirectY b)) 5 .pageCross s

/-- BIT Zero Page, 0x24: 3 cycles (R76, R56). -/
def execBitZp (b : Byte) (s : State) : Host.Outcome State Fault Refusal :=
  readInstr State.bitTest (.memory (.zeroPage b)) 3 .none s

/-- BIT Absolute, 0x2C: 4 cycles (R76, R59). -/
def execBitAbs (w : Addr) (s : State) : Host.Outcome State Fault Refusal :=
  readInstr State.bitTest (.memory (.absolute w)) 4 .none s

end Sys2Proof.Machine
end

