-- ==== Sys2Proof/Machine/Shift.lean ====
section
/-! DEFINITION. Shifts and rotates: ASL, LSR, ROL, ROR (`44_shift_rotate.md` R77 to R81). The rules are the byte
functions `aslByte`, `lsrByte`, `rolByte`, `rorByte` of Flags.lean; Absolute,X costs 7 always (R68). -/

namespace Sys2Proof.Machine

/-- ASL Accumulator, 0x0A: 2 cycles (R77, R64). -/
def execAslAcc (s : State) : Host.Outcome State Fault Refusal :=
  modifyInstr aslByte .accumulator 2 s

/-- ASL Zero Page, 0x06: 5 cycles (R77, R56). -/
def execAslZp (b : Byte) (s : State) : Host.Outcome State Fault Refusal :=
  modifyInstr aslByte (.memory (.zeroPage b)) 5 s

/-- ASL Zero Page,X, 0x16: 6 cycles (R77, R57). -/
def execAslZpX (b : Byte) (s : State) : Host.Outcome State Fault Refusal :=
  modifyInstr aslByte (.memory (.zeroPageX b)) 6 s

/-- ASL Absolute, 0x0E: 6 cycles (R77, R59). -/
def execAslAbs (w : Addr) (s : State) : Host.Outcome State Fault Refusal :=
  modifyInstr aslByte (.memory (.absolute w)) 6 s

/-- ASL Absolute,X, 0x1E: 7 cycles (R77, R60). -/
def execAslAbsX (w : Addr) (s : State) : Host.Outcome State Fault Refusal :=
  modifyInstr aslByte (.memory (.absoluteX w)) 7 s

/-- LSR Accumulator, 0x4A: 2 cycles (R78, R64). -/
def execLsrAcc (s : State) : Host.Outcome State Fault Refusal :=
  modifyInstr lsrByte .accumulator 2 s

/-- LSR Zero Page, 0x46: 5 cycles (R78, R56). -/
def execLsrZp (b : Byte) (s : State) : Host.Outcome State Fault Refusal :=
  modifyInstr lsrByte (.memory (.zeroPage b)) 5 s

/-- LSR Zero Page,X, 0x56: 6 cycles (R78, R57). -/
def execLsrZpX (b : Byte) (s : State) : Host.Outcome State Fault Refusal :=
  modifyInstr lsrByte (.memory (.zeroPageX b)) 6 s

/-- LSR Absolute, 0x4E: 6 cycles (R78, R59). -/
def execLsrAbs (w : Addr) (s : State) : Host.Outcome State Fault Refusal :=
  modifyInstr lsrByte (.memory (.absolute w)) 6 s

/-- LSR Absolute,X, 0x5E: 7 cycles (R78, R60). -/
def execLsrAbsX (w : Addr) (s : State) : Host.Outcome State Fault Refusal :=
  modifyInstr lsrByte (.memory (.absoluteX w)) 7 s

/-- ROL Accumulator, 0x2A: 2 cycles (R79, R64). -/
def execRolAcc (s : State) : Host.Outcome State Fault Refusal :=
  modifyInstr rolByte .accumulator 2 s

/-- ROL Zero Page, 0x26: 5 cycles (R79, R56). -/
def execRolZp (b : Byte) (s : State) : Host.Outcome State Fault Refusal :=
  modifyInstr rolByte (.memory (.zeroPage b)) 5 s

/-- ROL Zero Page,X, 0x36: 6 cycles (R79, R57). -/
def execRolZpX (b : Byte) (s : State) : Host.Outcome State Fault Refusal :=
  modifyInstr rolByte (.memory (.zeroPageX b)) 6 s

/-- ROL Absolute, 0x2E: 6 cycles (R79, R59). -/
def execRolAbs (w : Addr) (s : State) : Host.Outcome State Fault Refusal :=
  modifyInstr rolByte (.memory (.absolute w)) 6 s

/-- ROL Absolute,X, 0x3E: 7 cycles (R79, R60). -/
def execRolAbsX (w : Addr) (s : State) : Host.Outcome State Fault Refusal :=
  modifyInstr rolByte (.memory (.absoluteX w)) 7 s

/-- ROR Accumulator, 0x6A: 2 cycles (R80, R64). -/
def execRorAcc (s : State) : Host.Outcome State Fault Refusal :=
  modifyInstr rorByte .accumulator 2 s

/-- ROR Zero Page, 0x66: 5 cycles (R80, R56). -/
def execRorZp (b : Byte) (s : State) : Host.Outcome State Fault Refusal :=
  modifyInstr rorByte (.memory (.zeroPage b)) 5 s

/-- ROR Zero Page,X, 0x76: 6 cycles (R80, R57). -/
def execRorZpX (b : Byte) (s : State) : Host.Outcome State Fault Refusal :=
  modifyInstr rorByte (.memory (.zeroPageX b)) 6 s

/-- ROR Absolute, 0x6E: 6 cycles (R80, R59). -/
def execRorAbs (w : Addr) (s : State) : Host.Outcome State Fault Refusal :=
  modifyInstr rorByte (.memory (.absolute w)) 6 s

/-- ROR Absolute,X, 0x7E: 7 cycles (R80, R60). -/
def execRorAbsX (w : Addr) (s : State) : Host.Outcome State Fault Refusal :=
  modifyInstr rorByte (.memory (.absoluteX w)) 7 s

end Sys2Proof.Machine
end

