-- ==== Sys2Proof/Machine/Stack.lean ====
section
/-! DEFINITION. Stack operations: PHA, PLA, PHP, PLP (`47_stack_transfer_flag_nop.md` R106 to R109). -/

namespace Sys2Proof.Machine

/-- PHA Implied, 0x48: 3 cycles (R106). -/
def execPha (s : State) : Host.Outcome State Fault Refusal :=
  commit s ((s.push s.A).bind (fun t => .ok (t.advance (Mode.length .implied) 3)))

/-- PLA Implied, 0x68: 4 cycles (R107). -/
def execPla (s : State) : Host.Outcome State Fault Refusal :=
  commit s (s.pop.bind (fun r => .ok ((r.2.loadA r.1).advance (Mode.length .implied) 4)))

/-- PHP Implied, 0x08: 3 cycles (R108). -/
def execPhp (s : State) : Host.Outcome State Fault Refusal :=
  commit s ((s.push s.P).bind (fun t => .ok (t.advance (Mode.length .implied) 3)))

/-- PLP Implied, 0x28: 4 cycles (R109). -/
def execPlp (s : State) : Host.Outcome State Fault Refusal :=
  commit s (s.pop.bind (fun r => .ok ((r.2.setP (r.1 ||| mask1)).advance (Mode.length .implied) 4)))

end Sys2Proof.Machine
end

