-- ==== Sys2Proof/Machine/Transfer.lean ====
section
/-! DEFINITION. Register transfers: TAX, TAY, TXA, TYA, TSX, TXS (`47_stack_transfer_flag_nop.md` R110 to R115). -/

namespace Sys2Proof.Machine

/-- TAX Implied, 0xAA: 2 cycles (R110). -/
def execTax (s : State) : Host.Outcome State Fault Refusal :=
  impliedInstr (fun t => t.loadX t.A) 2 s

/-- TAY Implied, 0xA8: 2 cycles (R111). -/
def execTay (s : State) : Host.Outcome State Fault Refusal :=
  impliedInstr (fun t => t.loadY t.A) 2 s

/-- TXA Implied, 0x8A: 2 cycles (R112). -/
def execTxa (s : State) : Host.Outcome State Fault Refusal :=
  impliedInstr (fun t => t.loadA t.X) 2 s

/-- TYA Implied, 0x98: 2 cycles (R113). -/
def execTya (s : State) : Host.Outcome State Fault Refusal :=
  impliedInstr (fun t => t.loadA t.Y) 2 s

/-- TSX Implied, 0xBA: 2 cycles (R114). -/
def execTsx (s : State) : Host.Outcome State Fault Refusal :=
  impliedInstr (fun t => t.loadX t.S) 2 s

/-- TXS Implied, 0x9A: 2 cycles (R115). -/
def execTxs (s : State) : Host.Outcome State Fault Refusal :=
  impliedInstr (fun t => { t with S := t.X }) 2 s

end Sys2Proof.Machine
end

