-- ==== Sys2Proof/Machine/Loop.lean ====
section
/-! DEFINITION. The dispatch loop (`49_dispatch_loop.md` R130 to R140), with the configuration as an argument. -/

namespace Sys2Proof.Machine

/-- Fetch and decode at `pc` (R131 to R133): the instruction, or none if the byte there has no row. -/
def fetchInstr (cfg : Config) (s : State) : Option Instr :=
  match decode cfg s.fetchWindow with
  | .ok (i, _) => some i
  | .error _ => none

/-- `step` of R130. In Halted it changes nothing and reports the recorded fault (R138). In Fetch it executes the
instruction at `pc`; where there is none it halts with UnimplementedOpcode (R143). A step that raises a fault
answers the state the spec describes, `run` Halted (R137, R147; log 5). -/
def stepWith (cfg : Config) (s : State) : Host.Outcome State Fault Refusal :=
  match s.run with
  | .halted f => .fault f
  | .fetch =>
    match fetchInstr cfg s with
    | some i => exec i s
    | none => .next (s.raise (.unimplementedOpcode (s.memRead s.pc) s.pc))

/-- The result value of a step (R139). -/
inductive StepResult where
  /-- `Ok(cost)`. -/
  | ok (cost : Nat)
  /-- `Err(f)`. -/
  | err (f : Fault)
  deriving DecidableEq, Repr

/-- The next state and the result value together, the shape of R130; none only for a refusal, which no
instruction answers (log 6). -/
def stepReturn (cfg : Config) (s : State) : Option (State × StepResult) :=
  match stepWith cfg s with
  | .fault f => some (s, .err f)
  | .refused _ => none
  | .next t =>
    match t.run with
    | .halted f => some (t, .err f)
    | .fetch => some (t, .ok (t.cycle - s.cycle))

/-- The state after a call of `step`, its result ignored (R140). -/
def stepState (cfg : Config) (s : State) : State :=
  match stepWith cfg s with
  | .next t => t
  | .fault _ => s
  | .refused _ => s

/-- `run_n(m, n)` of R140. -/
def runN (cfg : Config) : Nat → State → State
  | 0, s => s
  | n + 1, s => runN cfg n (stepState cfg s)

/-- `run_until_halt(m)` of R140 where it takes at most `fuel` steps: iterate `step` while `run` = Fetch; none if the loop is still
in Fetch after `fuel` steps. -/
def runUntilHaltWithin (cfg : Config) : Nat → State → Option State
  | 0, s =>
    match s.run with
    | .halted _ => some s
    | .fetch => none
  | fuel + 1, s =>
    match s.run with
    | .halted _ => some s
    | .fetch => runUntilHaltWithin cfg fuel (stepState cfg s)

/-- The partial function `run_until_halt(m)` of R140, as its graph: it is defined at `s` with value `t`. It is undefined at `s`
exactly when the run from `s` never halts (R141). -/
def RunUntilHalt (cfg : Config) (s t : State) : Prop := ∃ fuel, runUntilHaltWithin cfg fuel s = some t

end Sys2Proof.Machine
end

