-- ==== Sys2Proof/Machine/Step.lean ====
section
/-! DEFINITION. One step of the machine under the spec's default configuration, and the host's hook that places
an instruction where the next step fetches. -/

namespace Sys2Proof.Machine

/-- `step` (`49_dispatch_loop.md` R130) with `ILLEGAL_NOPS` empty (`00_scope.md` R5; log 4). -/
def step (s : State) : Host.Outcome State Fault Refusal := stepWith Config.default s

/-- `s` with an instruction of the table at `pc` and the loop in Fetch, so that the next step runs it (log 9). -/
def State.withFetchWord (s : State) (nbits w : Nat) : State :=
  { s.storeBytes s.pc (tableBytes nbits w) with run := .fetch }

end Sys2Proof.Machine
end

