-- ==== Sys2Proof/Safety.lean ====
section
/-! DEFINITION. What claims about runs are stated in. -/

namespace Sys2Proof.Machine

/-- The machine's invariant: bit 5 of `P` is 1 (`10_state.md` R11), and memory and the stack buffer are in canonical form inside
their address ranges (R15, R12; log 16). -/
structure State.Inv (s : State) : Prop where
  bit5 : s.P.getLsbD 5 = true
  memory_wf : s.memory.wf = true
  memory_below : s.memory.below 65536 = true
  stack_wf : s.stack.wf = true
  stack_below : s.stack.below 256 = true

/-- A run of `n` steps is safe if the loop is in Fetch before each of them and after the last: no step of it
raised a fault (`49_dispatch_loop.md` R137). -/
def SafeRun (cfg : Config) (n : Nat) (s : State) : Prop :=
  ∀ k ≤ n, (runN cfg k s).run = .fetch

end Sys2Proof.Machine
end

