-- ==== Sys2Proof/Certificates/Slice0/Obligations.lean ====
section
/-! DEFINITION. The statements about the machine, and the vocabulary they are written in. Results are said in
number arithmetic or bit by bit, not through the model's own flag functions. -/

namespace Sys2Proof.Claims

open Sys2Proof.Machine

/-! ### Forms of instructions, as the Encoding items of the instruction rules list them -/

/-- One row of an instruction rule's Encoding item: the bytes in memory order, the instruction they stand for, its
operand, its base cycles and its mark in the `+` column (R36). -/
structure InstrForm (κ : Type) where
  bytes : List Byte
  instr : Instr
  operand : κ
  cycles : Nat
  extra : Extra

/-- The bytes decode to the instruction, whatever bytes follow and whatever `ILLEGAL_NOPS` holds. -/
def InstrForm.Encoded {κ : Type} (f : InstrForm κ) : Prop :=
  ∀ cfg rest, decode cfg (f.bytes ++ rest) = .ok (f.instr, rest)

/-- ADC: R70. -/
def adcForms (b h l : Byte) : List (InstrForm Operand) :=
  [
   ⟨[0x69, b], .adcImm b, .immediate b, 2, .none⟩,
   ⟨[0x65, b], .adcZp b, .memory (.zeroPage b), 3, .none⟩,
   ⟨[0x75, b], .adcZpX b, .memory (.zeroPageX b), 4, .none⟩,
   ⟨[0x6D, l, h], .adcAbs (wordOf h l), .memory (.absolute (wordOf h l)), 4, .none⟩,
   ⟨[0x7D, l, h], .adcAbsX (wordOf h l), .memory (.absoluteX (wordOf h l)), 4, .pageCross⟩,
   ⟨[0x79, l, h], .adcAbsY (wordOf h l), .memory (.absoluteY (wordOf h l)), 4, .pageCross⟩,
   ⟨[0x61, b], .adcIndX b, .memory (.indirectX b), 6, .none⟩,
   ⟨[0x71, b], .adcIndY b, .memory (.indirectY b), 5, .pageCross⟩]

/-- SBC: R71. -/
def sbcForms (b h l : Byte) : List (InstrForm Operand) :=
  [
   ⟨[0xE9, b], .sbcImm b, .immediate b, 2, .none⟩,
   ⟨[0xE5, b], .sbcZp b, .memory (.zeroPage b), 3, .none⟩,
   ⟨[0xF5, b], .sbcZpX b, .memory (.zeroPageX b), 4, .none⟩,
   ⟨[0xED, l, h], .sbcAbs (wordOf h l), .memory (.absolute (wordOf h l)), 4, .none⟩,
   ⟨[0xFD, l, h], .sbcAbsX (wordOf h l), .memory (.absoluteX (wordOf h l)), 4, .pageCross⟩,
   ⟨[0xF9, l, h], .sbcAbsY (wordOf h l), .memory (.absoluteY (wordOf h l)), 4, .pageCross⟩,
   ⟨[0xE1, b], .sbcIndX b, .memory (.indirectX b), 6, .none⟩,
   ⟨[0xF1, b], .sbcIndY b, .memory (.indirectY b), 5, .pageCross⟩]

/-- AND: R73. -/
def andForms (b h l : Byte) : List (InstrForm Operand) :=
  [
   ⟨[0x29, b], .andImm b, .immediate b, 2, .none⟩,
   ⟨[0x25, b], .andZp b, .memory (.zeroPage b), 3, .none⟩,
   ⟨[0x35, b], .andZpX b, .memory (.zeroPageX b), 4, .none⟩,
   ⟨[0x2D, l, h], .andAbs (wordOf h l), .memory (.absolute (wordOf h l)), 4, .none⟩,
   ⟨[0x3D, l, h], .andAbsX (wordOf h l), .memory (.absoluteX (wordOf h l)), 4, .pageCross⟩,
   ⟨[0x39, l, h], .andAbsY (wordOf h l), .memory (.absoluteY (wordOf h l)), 4, .pageCross⟩,
   ⟨[0x21, b], .andIndX b, .memory (.indirectX b), 6, .none⟩,
   ⟨[0x31, b], .andIndY b, .memory (.indirectY b), 5, .pageCross⟩]

/-- ORA: R74. -/
def oraForms (b h l : Byte) : List (InstrForm Operand) :=
  [
   ⟨[0x09, b], .oraImm b, .immediate b, 2, .none⟩,
   ⟨[0x05, b], .oraZp b, .memory (.zeroPage b), 3, .none⟩,
   ⟨[0x15, b], .oraZpX b, .memory (.zeroPageX b), 4, .none⟩,
   ⟨[0x0D, l, h], .oraAbs (wordOf h l), .memory (.absolute (wordOf h l)), 4, .none⟩,
   ⟨[0x1D, l, h], .oraAbsX (wordOf h l), .memory (.absoluteX (wordOf h l)), 4, .pageCross⟩,
   ⟨[0x19, l, h], .oraAbsY (wordOf h l), .memory (.absoluteY (wordOf h l)), 4, .pageCross⟩,
   ⟨[0x01, b], .oraIndX b, .memory (.indirectX b), 6, .none⟩,
   ⟨[0x11, b], .oraIndY b, .memory (.indirectY b), 5, .pageCross⟩]

/-- EOR: R75. -/
def eorForms (b h l : Byte) : List (InstrForm Operand) :=
  [
   ⟨[0x49, b], .eorImm b, .immediate b, 2, .none⟩,
   ⟨[0x45, b], .eorZp b, .memory (.zeroPage b), 3, .none⟩,
   ⟨[0x55, b], .eorZpX b, .memory (.zeroPageX b), 4, .none⟩,
   ⟨[0x4D, l, h], .eorAbs (wordOf h l), .memory (.absolute (wordOf h l)), 4, .none⟩,
   ⟨[0x5D, l, h], .eorAbsX (wordOf h l), .memory (.absoluteX (wordOf h l)), 4, .pageCross⟩,
   ⟨[0x59, l, h], .eorAbsY (wordOf h l), .memory (.absoluteY (wordOf h l)), 4, .pageCross⟩,
   ⟨[0x41, b], .eorIndX b, .memory (.indirectX b), 6, .none⟩,
   ⟨[0x51, b], .eorIndY b, .memory (.indirectY b), 5, .pageCross⟩]

/-- BIT: R76. -/
def bitForms (b h l : Byte) : List (InstrForm Operand) :=
  [
   ⟨[0x24, b], .bitZp b, .memory (.zeroPage b), 3, .none⟩,
   ⟨[0x2C, l, h], .bitAbs (wordOf h l), .memory (.absolute (wordOf h l)), 4, .none⟩]

/-- CMP: R82. -/
def cmpForms (b h l : Byte) : List (InstrForm Operand) :=
  [
   ⟨[0xC9, b], .cmpImm b, .immediate b, 2, .none⟩,
   ⟨[0xC5, b], .cmpZp b, .memory (.zeroPage b), 3, .none⟩,
   ⟨[0xD5, b], .cmpZpX b, .memory (.zeroPageX b), 4, .none⟩,
   ⟨[0xCD, l, h], .cmpAbs (wordOf h l), .memory (.absolute (wordOf h l)), 4, .none⟩,
   ⟨[0xDD, l, h], .cmpAbsX (wordOf h l), .memory (.absoluteX (wordOf h l)), 4, .pageCross⟩,
   ⟨[0xD9, l, h], .cmpAbsY (wordOf h l), .memory (.absoluteY (wordOf h l)), 4, .pageCross⟩,
   ⟨[0xC1, b], .cmpIndX b, .memory (.indirectX b), 6, .none⟩,
   ⟨[0xD1, b], .cmpIndY b, .memory (.indirectY b), 5, .pageCross⟩]

/-- CPX: R83. -/
def cpxForms (b h l : Byte) : List (InstrForm Operand) :=
  [
   ⟨[0xE0, b], .cpxImm b, .immediate b, 2, .none⟩,
   ⟨[0xE4, b], .cpxZp b, .memory (.zeroPage b), 3, .none⟩,
   ⟨[0xEC, l, h], .cpxAbs (wordOf h l), .memory (.absolute (wordOf h l)), 4, .none⟩]

/-- CPY: R84. -/
def cpyForms (b h l : Byte) : List (InstrForm Operand) :=
  [
   ⟨[0xC0, b], .cpyImm b, .immediate b, 2, .none⟩,
   ⟨[0xC4, b], .cpyZp b, .memory (.zeroPage b), 3, .none⟩,
   ⟨[0xCC, l, h], .cpyAbs (wordOf h l), .memory (.absolute (wordOf h l)), 4, .none⟩]

/-- LDA: R124. -/
def ldaForms (b h l : Byte) : List (InstrForm Operand) :=
  [
   ⟨[0xA9, b], .ldaImm b, .immediate b, 2, .none⟩,
   ⟨[0xA5, b], .ldaZp b, .memory (.zeroPage b), 3, .none⟩,
   ⟨[0xB5, b], .ldaZpX b, .memory (.zeroPageX b), 4, .none⟩,
   ⟨[0xAD, l, h], .ldaAbs (wordOf h l), .memory (.absolute (wordOf h l)), 4, .none⟩,
   ⟨[0xBD, l, h], .ldaAbsX (wordOf h l), .memory (.absoluteX (wordOf h l)), 4, .pageCross⟩,
   ⟨[0xB9, l, h], .ldaAbsY (wordOf h l), .memory (.absoluteY (wordOf h l)), 4, .pageCross⟩,
   ⟨[0xA1, b], .ldaIndX b, .memory (.indirectX b), 6, .none⟩,
   ⟨[0xB1, b], .ldaIndY b, .memory (.indirectY b), 5, .pageCross⟩]

/-- LDX: R125. -/
def ldxForms (b h l : Byte) : List (InstrForm Operand) :=
  [
   ⟨[0xA2, b], .ldxImm b, .immediate b, 2, .none⟩,
   ⟨[0xA6, b], .ldxZp b, .memory (.zeroPage b), 3, .none⟩,
   ⟨[0xB6, b], .ldxZpY b, .memory (.zeroPageY b), 4, .none⟩,
   ⟨[0xAE, l, h], .ldxAbs (wordOf h l), .memory (.absolute (wordOf h l)), 4, .none⟩,
   ⟨[0xBE, l, h], .ldxAbsY (wordOf h l), .memory (.absoluteY (wordOf h l)), 4, .pageCross⟩]

/-- LDY: R126. -/
def ldyForms (b h l : Byte) : List (InstrForm Operand) :=
  [
   ⟨[0xA0, b], .ldyImm b, .immediate b, 2, .none⟩,
   ⟨[0xA4, b], .ldyZp b, .memory (.zeroPage b), 3, .none⟩,
   ⟨[0xB4, b], .ldyZpX b, .memory (.zeroPageX b), 4, .none⟩,
   ⟨[0xAC, l, h], .ldyAbs (wordOf h l), .memory (.absolute (wordOf h l)), 4, .none⟩,
   ⟨[0xBC, l, h], .ldyAbsX (wordOf h l), .memory (.absoluteX (wordOf h l)), 4, .pageCross⟩]

/-- STA: R127. -/
def staForms (b h l : Byte) : List (InstrForm MemOperand) :=
  [
   ⟨[0x85, b], .staZp b, .zeroPage b, 3, .none⟩,
   ⟨[0x95, b], .staZpX b, .zeroPageX b, 4, .none⟩,
   ⟨[0x8D, l, h], .staAbs (wordOf h l), .absolute (wordOf h l), 4, .none⟩,
   ⟨[0x9D, l, h], .staAbsX (wordOf h l), .absoluteX (wordOf h l), 5, .none⟩,
   ⟨[0x99, l, h], .staAbsY (wordOf h l), .absoluteY (wordOf h l), 5, .none⟩,
   ⟨[0x81, b], .staIndX b, .indirectX b, 6, .none⟩,
   ⟨[0x91, b], .staIndY b, .indirectY b, 6, .none⟩]

/-- STX: R128. -/
def stxForms (b h l : Byte) : List (InstrForm MemOperand) :=
  [
   ⟨[0x86, b], .stxZp b, .zeroPage b, 3, .none⟩,
   ⟨[0x96, b], .stxZpY b, .zeroPageY b, 4, .none⟩,
   ⟨[0x8E, l, h], .stxAbs (wordOf h l), .absolute (wordOf h l), 4, .none⟩]

/-- STY: R129. -/
def styForms (b h l : Byte) : List (InstrForm MemOperand) :=
  [
   ⟨[0x84, b], .styZp b, .zeroPage b, 3, .none⟩,
   ⟨[0x94, b], .styZpX b, .zeroPageX b, 4, .none⟩,
   ⟨[0x8C, l, h], .styAbs (wordOf h l), .absolute (wordOf h l), 4, .none⟩]

/-- ASL: R77. -/
def aslForms (b h l : Byte) : List (InstrForm Place) :=
  [
   ⟨[0x0A], .aslAcc, .accumulator, 2, .none⟩,
   ⟨[0x06, b], .aslZp b, .memory (.zeroPage b), 5, .none⟩,
   ⟨[0x16, b], .aslZpX b, .memory (.zeroPageX b), 6, .none⟩,
   ⟨[0x0E, l, h], .aslAbs (wordOf h l), .memory (.absolute (wordOf h l)), 6, .none⟩,
   ⟨[0x1E, l, h], .aslAbsX (wordOf h l), .memory (.absoluteX (wordOf h l)), 7, .none⟩]

/-- LSR: R78. -/
def lsrForms (b h l : Byte) : List (InstrForm Place) :=
  [
   ⟨[0x4A], .lsrAcc, .accumulator, 2, .none⟩,
   ⟨[0x46, b], .lsrZp b, .memory (.zeroPage b), 5, .none⟩,
   ⟨[0x56, b], .lsrZpX b, .memory (.zeroPageX b), 6, .none⟩,
   ⟨[0x4E, l, h], .lsrAbs (wordOf h l), .memory (.absolute (wordOf h l)), 6, .none⟩,
   ⟨[0x5E, l, h], .lsrAbsX (wordOf h l), .memory (.absoluteX (wordOf h l)), 7, .none⟩]

/-- ROL: R79. -/
def rolForms (b h l : Byte) : List (InstrForm Place) :=
  [
   ⟨[0x2A], .rolAcc, .accumulator, 2, .none⟩,
   ⟨[0x26, b], .rolZp b, .memory (.zeroPage b), 5, .none⟩,
   ⟨[0x36, b], .rolZpX b, .memory (.zeroPageX b), 6, .none⟩,
   ⟨[0x2E, l, h], .rolAbs (wordOf h l), .memory (.absolute (wordOf h l)), 6, .none⟩,
   ⟨[0x3E, l, h], .rolAbsX (wordOf h l), .memory (.absoluteX (wordOf h l)), 7, .none⟩]

/-- ROR: R80. -/
def rorForms (b h l : Byte) : List (InstrForm Place) :=
  [
   ⟨[0x6A], .rorAcc, .accumulator, 2, .none⟩,
   ⟨[0x66, b], .rorZp b, .memory (.zeroPage b), 5, .none⟩,
   ⟨[0x76, b], .rorZpX b, .memory (.zeroPageX b), 6, .none⟩,
   ⟨[0x6E, l, h], .rorAbs (wordOf h l), .memory (.absolute (wordOf h l)), 6, .none⟩,
   ⟨[0x7E, l, h], .rorAbsX (wordOf h l), .memory (.absoluteX (wordOf h l)), 7, .none⟩]

/-- DEC: R85. -/
def decForms (b h l : Byte) : List (InstrForm Place) :=
  [
   ⟨[0xC6, b], .decZp b, .memory (.zeroPage b), 5, .none⟩,
   ⟨[0xD6, b], .decZpX b, .memory (.zeroPageX b), 6, .none⟩,
   ⟨[0xCE, l, h], .decAbs (wordOf h l), .memory (.absolute (wordOf h l)), 6, .none⟩,
   ⟨[0xDE, l, h], .decAbsX (wordOf h l), .memory (.absoluteX (wordOf h l)), 7, .none⟩]

/-- INC: R86. -/
def incForms (b h l : Byte) : List (InstrForm Place) :=
  [
   ⟨[0xE6, b], .incZp b, .memory (.zeroPage b), 5, .none⟩,
   ⟨[0xF6, b], .incZpX b, .memory (.zeroPageX b), 6, .none⟩,
   ⟨[0xEE, l, h], .incAbs (wordOf h l), .memory (.absolute (wordOf h l)), 6, .none⟩,
   ⟨[0xFE, l, h], .incAbsX (wordOf h l), .memory (.absoluteX (wordOf h l)), 7, .none⟩]

/-- The eight branches (R92 to R99): the operand is the bit of `P` the branch tests and the value it wants. -/
def branchForms (d : Byte) : List (InstrForm (Nat × Bool)) :=
  [
   ⟨[0x90, d], .bcc d, (0, false), 2, .branch⟩,
   ⟨[0xB0, d], .bcs d, (0, true), 2, .branch⟩,
   ⟨[0xF0, d], .beq d, (1, true), 2, .branch⟩,
   ⟨[0xD0, d], .bne d, (1, false), 2, .branch⟩,
   ⟨[0x30, d], .bmi d, (7, true), 2, .branch⟩,
   ⟨[0x10, d], .bpl d, (7, false), 2, .branch⟩,
   ⟨[0x50, d], .bvc d, (6, false), 2, .branch⟩,
   ⟨[0x70, d], .bvs d, (6, true), 2, .branch⟩]

/-- The one-byte instruction `op`. -/
def one (op : Byte) (i : Instr) (cycles : Nat) : InstrForm Unit := ⟨[op], i, (), cycles, .none⟩

/-! ### What a completed instruction leaves -/

/-- `P.f` as a bit, by position: C 0, Z 1, I 2, D 3, B 4, V 6, N 7 (R10). -/
def flagBit (t : State) (k : Nat) : Bool := t.P.getLsbD k

/-- The carry as a number. -/
def carryNat (s : State) : Nat := if flagBit s 0 = true then 1 else 0

/-- Z is 1 exactly when `r` is 0, and N is bit 7 of `r` (R52). -/
def ZNFrom (r : Byte) (t : State) : Prop := (flagBit t 1 = true ↔ r = 0) ∧ flagBit t 7 = r.getLsbD 7

/-- The listed bits of `P` are unchanged, and bit 5 is 1 (R11). -/
def KeepsFlags (bits : List Nat) (s t : State) : Prop :=
  (∀ k ∈ bits, flagBit t k = flagBit s k) ∧ flagBit t 5 = true

/-- Every byte of memory reads as before. -/
def KeepsMemory (s t : State) : Prop := ∀ a : Addr, t.memRead a = s.memRead a

/-- Every byte of memory but the one at `a` reads as before. -/
def KeepsMemoryBut (a : Addr) (s t : State) : Prop := ∀ b : Addr, b ≠ a → t.memRead b = s.memRead b

/-- Every slot of the stack buffer reads as before. -/
def KeepsStack (s t : State) : Prop := ∀ i : Byte, t.stackRead i = s.stackRead i

/-- Every slot of the stack buffer but the listed ones reads as before. -/
def KeepsStackBut (is : List Byte) (s t : State) : Prop := ∀ i : Byte, i ∉ is → t.stackRead i = s.stackRead i

/-- The one extra cycle of R68. -/
def crossCycle (extra : Extra) (crossed : Bool) : Nat := if extra = .pageCross ∧ crossed = true then 1 else 0

/-- The form is encoded as its rule says, and executing it in `s` COMPLETES: `exec` answers a next state, with `pc`
past the instruction's bytes, the base cost and `more` added to `cycle`, the loop still in the state it was in, and `post`. -/
def Completes {κ : Type} (s : State) (f : InstrForm κ) (more : Nat) (post : State → Prop) : Prop :=
  f.Encoded ∧ ∃ t, exec f.instr s = .next t ∧ t.pc = s.pc + BitVec.ofNat 16 f.bytes.length ∧
    t.cycle = s.cycle + f.cycles + more ∧ t.run = s.run ∧ post t

/-- The place holds `r` in `t`, and everything else a read-modify-write instruction could write is as in `s` (R81). -/
def PlaceHolds (pl : Place) (s t : State) (r : Byte) : Prop :=
  match pl with
  | .accumulator => t.A = r ∧ KeepsMemory s t
  | .memory m => t.memRead (m.ea s) = r ∧ KeepsMemoryBut (m.ea s) s t ∧ t.A = s.A

/-- `X`, `Y`, `S` and the stack buffer are as before. -/
def KeepsIndexes (s t : State) : Prop := t.X = s.X ∧ t.Y = s.Y ∧ t.S = s.S ∧ KeepsStack s t

/-! ### Instructions by their row of the dispatch table -/

/-- The instruction's mnemonic, by its opcode byte's row; an illegal NOP is a NOP (R38). -/
def mnemonicOf (i : Instr) : String :=
  match lookup ((encode i).headD 0) with
  | some row => row.mnemonic
  | none => "NOP"

/-- The memory operand that a row's mode and the instruction's bytes name (R33, R35, R54). -/
def memOperandOf (mode : Mode) (bytes : List Byte) : Option MemOperand :=
  match mode, bytes with
  | .zeroPage, [_, b] => some (.zeroPage b)
  | .zeroPageX, [_, b] => some (.zeroPageX b)
  | .zeroPageY, [_, b] => some (.zeroPageY b)
  | .absolute, [_, l, h] => some (.absolute (wordOf h l))
  | .absoluteX, [_, l, h] => some (.absoluteX (wordOf h l))
  | .absoluteY, [_, l, h] => some (.absoluteY (wordOf h l))
  | .indirectX, [_, b] => some (.indirectX b)
  | .indirectY, [_, b] => some (.indirectY b)
  | _, _ => none

/-- The mnemonics that store to their memory operand: the stores and the read-modify-write instructions (R24). -/
def storingMnemonics : List String :=
  ["STA", "STX", "STY", "ASL", "LSR", "ROL", "ROR", "INC", "DEC"]

/-- The mnemonics whose rule assigns `pc` even when no condition is tested (R135). -/
def jumpMnemonics : List String := ["JMP", "JSR", "RTS", "BRK", "RTI"]

/-- Whether the branch of this mnemonic is taken (R91): false for a mnemonic that is no branch. -/
def branchTaken (mnemonic : String) (s : State) : Bool :=
  match mnemonic with
  | "BCC" => !flagBit s 0
  | "BCS" => flagBit s 0
  | "BNE" => !flagBit s 1
  | "BEQ" => flagBit s 1
  | "BVC" => !flagBit s 6
  | "BVS" => flagBit s 6
  | "BPL" => !flagBit s 7
  | "BMI" => flagBit s 7
  | _ => false

/-- The cost of R136: the row's base count, the page-cross cycle of a row marked `p`, and for a taken branch to `target` one
cycle, and one more on another page than the instruction after it. -/
def rowCost (row : Row) (i : Instr) (s t : State) : Nat :=
  row.cycles +
    (if row.extra = .pageCross ∧ ∃ m, memOperandOf row.mode (encode i) = some m ∧ m.crossed s = true then 1 else 0) +
    (if branchTaken row.mnemonic s = true then
      (if t.pc.toNat / 256 = (s.pc.toNat + 2) % 65536 / 256 then 1 else 2) else 0)

/-- The writers of a bit of `P`, the column "Written by" of R10. -/
def flagWriters : Nat → List String
  | 0 => ["ADC", "SBC", "CMP", "CPX", "CPY", "ASL", "LSR", "ROL", "ROR", "CLC", "SEC", "PLP", "RTI"]
  | 2 => ["SEI", "CLI", "BRK", "PLP", "RTI"]
  | 3 => ["SED", "CLD", "PLP", "RTI"]
  | 4 => ["PLP", "RTI"]
  | 6 => ["ADC", "SBC", "BIT", "CLV", "PLP", "RTI"]
  | _ => ["ADC", "SBC", "AND", "ORA", "EOR", "BIT", "ASL", "LSR", "ROL", "ROR", "CMP", "CPX", "CPY", "INC", "DEC",
      "INX", "INY", "DEX", "DEY", "LDA", "LDX", "LDY", "PLA", "TAX", "TAY", "TXA", "TYA", "TSX", "PLP", "RTI"]

/-- Two states that differ at most in the bits I, D and B of `P`. -/
def AgreeButIDB (s t : State) : Prop :=
  (∀ k : Nat, k < 8 → k ≠ 2 → k ≠ 3 → k ≠ 4 → flagBit s k = flagBit t k) ∧ t = { s with P := t.P }

/-- Two states that differ at most in stack slots that hold no pushed byte: slot 0 and the slots above `S`. -/
def AgreeOnLiveStack (s t : State) : Prop :=
  (∀ i : Byte, 0 < i.toNat → i.toNat ≤ s.S.toNat → s.stackRead i = t.stackRead i) ∧ t = { s with stack := t.stack }

end Sys2Proof.Claims

open Sys2Proof Sys2Proof.Machine Sys2Proof.Claims

/-! ### Encoding and fetch -/

/-- Decode and encode agree: decoding an encoded well-formed instruction gives it back, with the bytes after it
(R33 to R36, R38). -/
def Obligations.DecodeOfEncodeIsInstruction : Prop :=
  ∀ (cfg : Config) (i : Instr) (rest : List Byte), cfg.wf = true → i.wf cfg = true →
    decode cfg (encode i ++ rest) = .ok (i, rest)

/-- The other direction: bytes that decode are the encoding of the instruction they decode to, which is well formed. -/
def Obligations.DecodedBytesReencode : Prop :=
  ∀ (cfg : Config) (bytes rest : List Byte) (i : Instr), decode cfg bytes = .ok (i, rest) →
    bytes = encode i ++ rest ∧ (cfg.wf = true → i.wf cfg = true)

/-- Words written out from the encodings of the spec decode to the instructions they stand for (R36, R39 examples). -/
def Obligations.SpecWordsDecode : Prop :=
  decodeTableWord 16 0b1111111101101001 = some (.adcImm 0xFF) ∧
  decodeTableWord 8 0b11101010 = some .nop ∧
  decodeTableWord 24 0b000100100011010010101101 = some (.ldaAbs 0x1234) ∧
  decodeTableWord 24 0b000100100011010001101100 = some (.jmpInd 0x1234) ∧
  decodeTableWord 16 0b0000001011010000 = some (.bne 0x02) ∧
  decodeTableWord 16 0b0001000010110001 = some (.ldaIndY 0x10) ∧
  decodeTableWord 8 0b00001010 = some .aslAcc ∧
  decodeTableWord 8 0b00000010 = none

/-- The dispatch table has 151 rows and 56 mnemonics, no two rows share a byte, and the 105 other bytes are exactly those of R37. -/
def Obligations.DispatchTableAndUndefinedBytesCoverEveryByte : Prop :=
  dispatchTable.length = 151 ∧ (dispatchTable.map Row.mnemonic).dedup.length = 56 ∧
  (dispatchTable.map Row.opcode).Nodup ∧ undefinedOpcodes.length = 105 ∧ undefinedOpcodes.Nodup ∧
  ∀ op : Byte, lookup op = none ↔ op ∈ undefinedOpcodes

/-- A byte outside the table that `ILLEGAL_NOPS` does not list raises UnimplementedOpcode: nothing changes but `run`
(R37, R143). -/
def Obligations.UnimplementedOpcodeHalts : Prop :=
  ∀ (cfg : Config) (s : State), s.run = .fetch → s.memRead s.pc ∈ undefinedOpcodes →
    (∀ e ∈ cfg.illegalNops, e.1 ≠ s.memRead s.pc) →
    stepWith cfg s = .next { s with run := .halted (.unimplementedOpcode (s.memRead s.pc) s.pc) } ∧
    stepReturn cfg s =
      some ({ s with run := .halted (.unimplementedOpcode (s.memRead s.pc) s.pc) },
        .err (.unimplementedOpcode (s.memRead s.pc) s.pc))

/-- A byte of `ILLEGAL_NOPS` runs as a one-byte NOP at the cost its entry gives; by default there is none (R38, R123). -/
def Obligations.IllegalNopChargesItsEntry : Prop :=
  Config.default.illegalNops = [] ∧
  ∀ (cfg : Config) (s : State) (cyc : Nat), cfg.wf = true → s.run = .fetch →
    (s.memRead s.pc, cyc) ∈ cfg.illegalNops →
    stepWith cfg s = exec (.nopIllegal (s.memRead s.pc) cyc) s ∧
    exec (.nopIllegal (s.memRead s.pc) cyc) s = .next { s with pc := s.pc + 1, cycle := s.cycle + cyc } ∧
    1 ≤ cyc ∧ s.memRead s.pc ∈ undefinedOpcodes

/-- A step in Fetch runs the instruction that the bytes at `pc` decode to, and nothing is added around `exec` (R130 to R134). The
second clause is the model's choice (log 4): the spec leaves the configuration `ILLEGAL_NOPS` open with the empty set as its default
(R5, R38), and `step` is `stepWith` under that default. -/
def Obligations.StepRunsDecodedInstruction : Prop :=
  (∀ (cfg : Config) (s : State) (i : Instr) (rest : List Byte), s.run = .fetch →
    decode cfg [s.memRead s.pc, s.memRead (s.pc + 1), s.memRead (s.pc + 2)] = .ok (i, rest) →
    stepWith cfg s = exec i s) ∧
  ∀ s : State, step s = stepWith Config.default s

/-- Memory that holds an encoded well-formed instruction at `pc` (addresses wrapping) makes the step run it. -/
def Obligations.MemoryBytesRunTheirInstruction : Prop :=
  ∀ (cfg : Config) (s : State) (i : Instr), cfg.wf = true → i.wf cfg = true → s.run = .fetch →
    (∀ k : Nat, k < (encode i).length → s.memRead (s.pc + BitVec.ofNat 16 k) = (encode i).getD k 0) →
    stepWith cfg s = exec i s

/-- The host's hook places an instruction where the next step runs it (log 9: the model's choice). -/
def Obligations.FetchWordRunsTableInstruction : Prop :=
  ∀ (s : State) (nbits w : Nat) (i : Instr), s.memory.wf = true → decodeTableWord nbits w = some i →
    step (s.withFetchWord nbits w) = exec i (s.withFetchWord nbits w)

/-! ### Reset and invariants -/

/-- Reset is construction: every field at the value R19 gives, the three open ones at the arguments. -/
def Obligations.ResetConstructsTheSpecState : Prop :=
  ∀ (entry : Addr) (memInit stackInit : Memory), State.construct entry memInit stackInit =
    { A := 0x00, X := 0x00, Y := 0x00, S := 0x00, P := 0b00100100, pc := entry, cycle := 0, run := .fetch,
      memory := memInit, stack := stackInit } ∧
    (State.construct entry memInit stackInit).fault = none

/-- The invariant holds after reset with any canonical memory and stack contents, so at `State.reset` (logs 1 to 3). -/
def Obligations.InvariantHoldsAfterReset : Prop :=
  (∀ (entry : Addr) (memInit stackInit : Memory), memInit.wf = true → memInit.below 65536 = true →
    stackInit.wf = true → stackInit.below 256 = true → (State.construct entry memInit stackInit).Inv) ∧
  State.reset.Inv

/-- Every step keeps the invariant: bit 5 of `P`, the canonical form of memory and of the stack buffer. -/
def Obligations.StepKeepsInvariant : Prop :=
  ∀ (cfg : Config) (s t : State), s.Inv → stepWith cfg s = .next t → t.Inv

/-- "Bit 5 of `P` is always 1" (R11): it holds after reset and after any number of steps from there, and every step
keeps it. -/
def Obligations.StatusBitFiveIsAlwaysOne : Prop :=
  (∀ (cfg : Config) (s t : State), flagBit s 5 = true → stepWith cfg s = .next t → flagBit t 5 = true) ∧
  ∀ (cfg : Config) (n : Nat) (entry : Addr) (memInit stackInit : Memory),
    flagBit (runN cfg n (State.construct entry memInit stackInit)) 5 = true

/-! ### Facts about every step -/

/-- Halted is a fixed point of `step`: the recorded fault again, and no change, however often it is called (R138). -/
def Obligations.HaltedIsFixedPoint : Prop :=
  ∀ (cfg : Config) (s : State) (f : Fault), s.run = .halted f →
    stepWith cfg s = .fault f ∧ stepReturn cfg s = some (s, .err f) ∧ ∀ n, runN cfg n s = s

/-- `step` is total (R130): in Fetch it answers a next state, and it always has a result value. -/
def Obligations.StepAlwaysAnswers : Prop :=
  ∀ (cfg : Config) (s : State), (s.run = .fetch → ∃ t, stepWith cfg s = .next t) ∧
    ∃ t r, stepReturn cfg s = some (t, r)

/-- The derived runs of R140: `run_n` threads the state through `n` steps and ignores their results, and `run_until_halt` is the
partial function that iterates `step` while `run` = Fetch: its value is the first Halted state of the run, it has one value at
most, and it is undefined exactly on the runs that stay in Fetch for ever. -/
def Obligations.RunUntilHaltIteratesStepInFetch : Prop :=
  ∀ (cfg : Config) (s : State),
    runN cfg 0 s = s ∧
    (∀ t r, stepReturn cfg s = some (t, r) → ∀ n, runN cfg (n + 1) s = runN cfg n t) ∧
    (∀ m n, runN cfg (m + n) s = runN cfg n (runN cfg m s)) ∧
    (∀ t, RunUntilHalt cfg s t ↔
      ∃ n, runN cfg n s = t ∧ (∃ f, t.run = .halted f) ∧ ∀ k, k < n → (runN cfg k s).run = .fetch) ∧
    (∀ t u, RunUntilHalt cfg s t → RunUntilHalt cfg s u → t = u) ∧
    ((¬∃ t, RunUntilHalt cfg s t) ↔ ∀ n, (runN cfg n s).run = .fetch)

/-- Faults are precise and atomic (R147): when `step` returns `Err(f)` the state is the one at entry but for `run`
and `fault`; an UnimplementedOpcode raised by this step names the byte and its address. -/
def Obligations.FaultingStepChangesOnlyRun : Prop :=
  ∀ (cfg : Config) (s t : State) (f : Fault), stepReturn cfg s = some (t, .err f) →
    t = { s with run := .halted f } ∧ t.fault = some f ∧
    ∀ op a, s.run = .fetch → f = .unimplementedOpcode op a → a = s.pc ∧ op = s.memRead s.pc

/-- A decoded instruction raises a stack fault or none: overflow only PHA, PHP, JSR, BRK, underflow only PLA, PLP, RTS,
RTI (R142, R148). -/
def Obligations.OnlyStackInstructionsFault : Prop :=
  ∀ (i : Instr) (s t : State) (f : Fault), s.run = .fetch → exec i s = .next t → t.run = .halted f →
    (f = .stackOverflow ∧ mnemonicOf i ∈ ["PHA", "PHP", "JSR", "BRK"]) ∨
    (f = .stackUnderflow ∧ mnemonicOf i ∈ ["PLA", "PLP", "RTS", "RTI"])

/-- The cycle counter (R16): 0 after reset, at least 2 more after an instruction of the table and at least 1 more after an
illegal NOP, unchanged by a faulting step or a step in Halted, and read by no instruction. -/
def Obligations.CycleCounterGrowsAndIsNeverRead : Prop :=
  (∀ (entry : Addr) (memInit stackInit : Memory), (State.construct entry memInit stackInit).cycle = 0) ∧
  (∀ (cfg : Config) (s t : State) (c : Nat), cfg.wf = true → stepReturn cfg s = some (t, .ok c) →
    t.cycle = s.cycle + c ∧ 1 ≤ c ∧ (s.memRead s.pc ∉ undefinedOpcodes → 2 ≤ c)) ∧
  (∀ (cfg : Config) (s t : State) (f : Fault), stepReturn cfg s = some (t, .err f) → t.cycle = s.cycle) ∧
  ∀ (i : Instr) (s t : State) (k : Nat), exec i s = .next t →
    exec i { s with cycle := s.cycle + k } = .next { t with cycle := t.cycle + k }

/-- The cost of a successful step (R136): it is what the step returns and adds to `cycle`; for an opcode of the table it is the
row's, between 2 and 7, for another byte its entry's in `ILLEGAL_NOPS`. A step that returns a fault adds nothing. -/
def Obligations.CostFollowsTheDispatchTable : Prop :=
  (∀ (cfg : Config) (s t : State) (c : Nat) (i : Instr), fetchInstr cfg s = some i →
    stepReturn cfg s = some (t, .ok c) → t.cycle = s.cycle + c ∧
    (∀ row, lookup (s.memRead s.pc) = some row → c = rowCost row i s t ∧ 2 ≤ c ∧ c ≤ 7) ∧
    (lookup (s.memRead s.pc) = none → illegalNop cfg (s.memRead s.pc) = some (s.memRead s.pc, c))) ∧
  ∀ (cfg : Config) (s t : State) (f : Fault), stepReturn cfg s = some (t, .err f) → t.cycle = s.cycle

/-- The program counter increment (R135): unless a rule assigns `pc` (a taken branch, JMP, JSR, RTS, RTI, BRK) or a fault is
raised, `pc` moves past the instruction, modulo 65536. -/
def Obligations.ProgramCounterAdvancesByLength : Prop :=
  ∀ (i : Instr) (s t : State), s.run = .fetch → exec i s = .next t → t.run = .fetch →
    mnemonicOf i ∉ jumpMnemonics → branchTaken (mnemonicOf i) s = false →
    t.pc.toNat = (s.pc.toNat + (encode i).length) % 65536

/-- Memory changes only at the effective address of a store or a read-modify-write instruction (R24, R21). -/
def Obligations.MemoryChangesOnlyWhereStored : Prop :=
  ∀ (cfg : Config) (i : Instr) (s t : State), cfg.wf = true → i.wf cfg = true → exec i s = .next t →
    ∀ a : Addr,
      (∀ row m, lookup ((encode i).headD 0) = some row → row.mnemonic ∈ storingMnemonics →
        memOperandOf row.mode (encode i) = some m → a ≠ m.ea s) →
      t.memRead a = s.memRead a

/-- The stack buffer changes only above `S` and only by PHA, PHP, JSR, BRK; so `stack[0]` is never written (R12, R27). -/
def Obligations.StackChangesOnlyByPushesAboveS : Prop :=
  ∀ (cfg : Config) (i : Instr) (s t : State), cfg.wf = true → i.wf cfg = true → exec i s = .next t →
    (∀ j : Byte, j.toNat ≤ s.S.toNat → t.stackRead j = s.stackRead j) ∧
    (mnemonicOf i ∉ ["PHA", "PHP", "JSR", "BRK"] → t.stack = s.stack) ∧
    (mnemonicOf i ∉ ["PHA", "PHP", "JSR", "BRK", "PLA", "PLP", "RTS", "RTI", "TXS"] → t.S = s.S)

/-- `A`, `X` and `Y` are written only by the instructions whose rules name them as destination (R9). -/
def Obligations.RegistersChangeOnlyByTheirWriters : Prop :=
  ∀ (cfg : Config) (i : Instr) (s t : State), cfg.wf = true → i.wf cfg = true → exec i s = .next t →
    (mnemonicOf i ∉ ["ADC", "SBC", "AND", "ORA", "EOR", "LDA", "PLA", "TXA", "TYA"] →
      encode i ∉ [[0x0A], [0x4A], [0x2A], [0x6A]] → t.A = s.A) ∧
    (mnemonicOf i ∉ ["LDX", "TAX", "TSX", "INX", "DEX"] → t.X = s.X) ∧
    (mnemonicOf i ∉ ["LDY", "TAY", "INY", "DEY"] → t.Y = s.Y)

/-- Each flag of `P` is written only by the instructions that the table of R10 lists for it. -/
def Obligations.FlagsChangeOnlyByTheirWriters : Prop :=
  ∀ (cfg : Config) (i : Instr) (s t : State) (k : Nat), cfg.wf = true → i.wf cfg = true → exec i s = .next t →
    k < 8 → k ≠ 5 → mnemonicOf i ∉ flagWriters k → flagBit t k = flagBit s k

/-- I, D and B are storage only (R10, R72, R149): two states that differ in nothing else are taken by every instruction but
PHP and BRK, which push `P`, to states that differ in nothing else. -/
def Obligations.FlagsIDBInfluenceNothing : Prop :=
  ∀ (i : Instr) (s₁ s₂ : State), i ≠ .php → i ≠ .brk → AgreeButIDB s₁ s₂ →
    ∃ t₁ t₂, exec i s₁ = .next t₁ ∧ exec i s₂ = .next t₂ ∧ AgreeButIDB t₁ t₂

/-- As long as no TXS executes, stack slots that hold no pushed byte are unobservable, so `STACK_INIT` is (R13). -/
def Obligations.UnpushedStackSlotsAreUnobservable : Prop :=
  ∀ (i : Instr) (s₁ s₂ : State), i ≠ .txs → s₁.stack.wf = true → s₂.stack.wf = true → AgreeOnLiveStack s₁ s₂ →
    ∃ t₁ t₂, exec i s₁ = .next t₁ ∧ exec i s₂ = .next t₂ ∧ AgreeOnLiveStack t₁ t₂

/-! ### The primitives -/

/-- The memory primitives (R21): a read returns the last value written or, where nothing was, the byte of `MEM_INIT`; a write
changes nothing else, and repeating a write or writing the value that is there changes nothing. -/
def Obligations.MemoryIsPlainStorage : Prop :=
  ∀ (s : State) (a : Addr) (v w : Byte), s.memory.wf = true →
    (s.memWrite a v).memRead a = v ∧ KeepsMemoryBut a s (s.memWrite a v) ∧
    s.memWrite a v = { s with memory := (s.memWrite a v).memory } ∧
    (s.memWrite a v).memWrite a v = s.memWrite a v ∧ s.memWrite a (s.memRead a) = s ∧
    (s.memWrite a v).memWrite a w = s.memWrite a w ∧
    ∀ (entry : Addr) (memInit stackInit : Memory),
      (State.construct entry memInit stackInit).memRead a = memInit.read a.toNat

/-- Canonical memories that read the same everywhere are the same list (log 16: the model's own form). -/
def Obligations.EqualReadsMeanEqualMemories : Prop :=
  ∀ m₁ m₂ : Memory, m₁.wf = true → m₂.wf = true → (∀ a : Nat, m₁.read a = m₂.read a) → m₁ = m₂

/-- The stack primitives (R27): a push faults exactly at `S` = 255, else it increments `S` and writes there; a pop faults
exactly at `S` = 0, else it reads at `S` and decrements, and erases nothing. -/
def Obligations.StackPushAndPop : Prop :=
  ∀ (s : State) (v : Byte), s.stack.wf = true →
    (s.S.toNat = 255 → s.push v = .error .stackOverflow) ∧
    (s.S.toNat < 255 → ∃ t, s.push v = .ok t ∧ t.S.toNat = s.S.toNat + 1 ∧ t.stackRead t.S = v ∧
      KeepsStackBut [t.S] s t ∧ t = { s with S := t.S, stack := t.stack } ∧
      t.pop = .ok (v, { t with S := s.S })) ∧
    (s.S.toNat = 0 → s.pop = .error .stackUnderflow) ∧
    (0 < s.S.toNat → ∃ t, s.pop = .ok (s.stackRead s.S, t) ∧ t.S.toNat + 1 = s.S.toNat ∧ t = { s with S := t.S })

/-- The eight flag helpers (R42 to R49): each writes its one bit, sets bit 5 and leaves every other bit. -/
def Obligations.FlagHelpersWriteOneBit : Prop :=
  ∀ (p : Byte), ∀ e ∈ [(setCarry, 0, true), (clearCarry, 0, false), (setZero, 1, true), (clearZero, 1, false),
      (setOverflow, 6, true), (clearOverflow, 6, false), (setNegative, 7, true), (clearNegative, 7, false)],
    ∀ k : Nat, k < 8 →
      (e.1 p).getLsbD k = if k = 5 then true else if k = e.2.1 then e.2.2 else p.getLsbD k

/-- The effective address and the page-crossed bit of the eight memory modes in number arithmetic (R56 to R63): from the operand
bytes `b`, or `l` and then `h`, that follow the opcode `op`. Only LDX and STX have the mode Zero Page,Y, and no row of another mode
than Absolute,X, Absolute,Y and Indirect,Y has a page-cross cycle. -/
def Obligations.EffectiveAddressesWrapAsTheirModesSay : Prop :=
  (∀ row ∈ dispatchTable, (row.mode = .zeroPageY → row.mnemonic = "LDX" ∨ row.mnemonic = "STX") ∧
    (row.extra = .pageCross → row.mode = .absoluteX ∨ row.mode = .absoluteY ∨ row.mode = .indirectY)) ∧
  ∀ (s : State) (op b h l : Byte),
    let w := wordOf h l
    let base := 256 * h.toNat + l.toNat
    let ptr := fun z : Nat =>
      256 * (s.memRead (BitVec.ofNat 16 ((z + 1) % 256))).toNat + (s.memRead (BitVec.ofNat 16 (z % 256))).toNat
    let at_ := fun (m : MemOperand) (a : Nat) (operandBytes : List Byte) =>
      (m.ea s).toNat = a ∧ m.mode.length = operandBytes.length + 1 ∧
        memOperandOf m.mode (op :: operandBytes) = some m
    let page := fun (m : MemOperand) (base : Nat) => (m.crossed s = true ↔ base / 256 ≠ (m.ea s).toNat / 256)
    (at_ (.zeroPage b) b.toNat [b] ∧ (MemOperand.zeroPage b).crossed s = false) ∧
    (at_ (.zeroPageX b) ((b.toNat + s.X.toNat) % 256) [b] ∧ (MemOperand.zeroPageX b).crossed s = false) ∧
    (at_ (.zeroPageY b) ((b.toNat + s.Y.toNat) % 256) [b] ∧ (MemOperand.zeroPageY b).crossed s = false) ∧
    (at_ (.absolute w) base [l, h] ∧ (MemOperand.absolute w).crossed s = false) ∧
    (at_ (.absoluteX w) ((base + s.X.toNat) % 65536) [l, h] ∧ page (.absoluteX w) base) ∧
    (at_ (.absoluteY w) ((base + s.Y.toNat) % 65536) [l, h] ∧ page (.absoluteY w) base) ∧
    (at_ (.indirectX b) (ptr (b.toNat + s.X.toNat)) [b] ∧ (MemOperand.indirectX b).crossed s = false) ∧
    (at_ (.indirectY b) ((ptr b.toNat + s.Y.toNat) % 65536) [b] ∧ page (.indirectY b) (ptr b.toNat))

/-! ### Arithmetic and logic -/

/-- ADC in its eight forms (R70): the sum with the carry, C its carry out, V signed overflow, Z and N from the 8-bit result;
D is not read. -/
def Obligations.AdcAddsWithCarry : Prop :=
  ∀ (b h l : Byte) (s : State), ∀ f ∈ adcForms b h l,
    Completes s f (crossCycle f.extra (f.operand.crossed s)) fun t =>
      let v := f.operand.value s
      t.A.toNat = (s.A.toNat + v.toNat + carryNat s) % 256 ∧
      (flagBit t 0 = true ↔ s.A.toNat + v.toNat + carryNat s > 255) ∧
      (flagBit t 6 = true ↔
        s.A.toInt + v.toInt + carryNat s < -128 ∨ s.A.toInt + v.toInt + carryNat s > 127) ∧
      ZNFrom t.A t ∧ KeepsFlags [2, 3, 4] s t ∧ KeepsIndexes s t ∧ KeepsMemory s t

/-- SBC in its eight forms (R71): the difference with the borrow, C "no borrow", V signed overflow; D is not read. -/
def Obligations.SbcSubtractsWithBorrow : Prop :=
  ∀ (b h l : Byte) (s : State), ∀ f ∈ sbcForms b h l,
    Completes s f (crossCycle f.extra (f.operand.crossed s)) fun t =>
      let v := f.operand.value s
      (t.A.toNat : Int) = ((s.A.toNat : Int) - v.toNat - (1 - carryNat s)) % 256 ∧
      (flagBit t 0 = true ↔ s.A.toNat ≥ v.toNat + (1 - carryNat s)) ∧
      (flagBit t 6 = true ↔
        s.A.toInt - v.toInt - (1 - carryNat s) < -128 ∨ s.A.toInt - v.toInt - (1 - carryNat s) > 127) ∧
      ZNFrom t.A t ∧ KeepsFlags [2, 3, 4] s t ∧ KeepsIndexes s t ∧ KeepsMemory s t

/-- AND, ORA, EOR in their eight forms each (R73, R74, R75): bit by bit into `A`, Z and N from the result. -/
def Obligations.LogicWorksBitByBit : Prop :=
  ∀ (b h l : Byte) (s : State), ∀ e ∈ [(Bool.and, andForms b h l), (Bool.or, oraForms b h l),
      (Bool.xor, eorForms b h l)], ∀ f ∈ e.2,
    Completes s f (crossCycle f.extra (f.operand.crossed s)) fun t =>
      (∀ k : Nat, k < 8 → t.A.getLsbD k = e.1 (s.A.getLsbD k) ((f.operand.value s).getLsbD k)) ∧
      ZNFrom t.A t ∧ KeepsFlags [0, 2, 3, 4, 6] s t ∧ KeepsIndexes s t ∧ KeepsMemory s t

/-- BIT in its two forms (R76): Z from the AND, V and N from bits 6 and 7 of the operand, nothing else. -/
def Obligations.BitTestsTheOperand : Prop :=
  ∀ (b h l : Byte) (s : State), ∀ f ∈ bitForms b h l,
    Completes s f 0 fun t =>
      let v := f.operand.value s
      (flagBit t 1 = true ↔ ∀ k : Nat, k < 8 → ¬(s.A.getLsbD k = true ∧ v.getLsbD k = true)) ∧
      flagBit t 6 = v.getLsbD 6 ∧ flagBit t 7 = v.getLsbD 7 ∧ KeepsFlags [0, 2, 3, 4] s t ∧
      t.A = s.A ∧ KeepsIndexes s t ∧ KeepsMemory s t

/-- ASL and LSR in their five forms each (R77, R78): double or halve, C the bit shifted out. -/
def Obligations.ShiftsMoveByOneBit : Prop :=
  ∀ (b h l : Byte) (s : State), s.memory.wf = true →
    (∀ f ∈ aslForms b h l, Completes s f 0 fun t =>
      ∃ r : Byte, r.toNat = (f.operand.value s).toNat * 2 % 256 ∧ PlaceHolds f.operand s t r ∧
        flagBit t 0 = (f.operand.value s).getLsbD 7 ∧ ZNFrom r t ∧ KeepsFlags [2, 3, 4, 6] s t ∧
        KeepsIndexes s t) ∧
    (∀ f ∈ lsrForms b h l, Completes s f 0 fun t =>
      ∃ r : Byte, r.toNat = (f.operand.value s).toNat / 2 ∧ PlaceHolds f.operand s t r ∧
        flagBit t 0 = (f.operand.value s).getLsbD 0 ∧ ZNFrom r t ∧ KeepsFlags [2, 3, 4, 6] s t ∧
        KeepsIndexes s t)

/-- ROL and ROR in their five forms each (R79, R80): the old carry enters at one end, C is the bit that left at the other. -/
def Obligations.RotatesPassThroughCarry : Prop :=
  ∀ (b h l : Byte) (s : State), s.memory.wf = true →
    (∀ f ∈ rolForms b h l, Completes s f 0 fun t =>
      ∃ r : Byte, r.toNat = ((f.operand.value s).toNat * 2 + carryNat s) % 256 ∧ PlaceHolds f.operand s t r ∧
        flagBit t 0 = (f.operand.value s).getLsbD 7 ∧ ZNFrom r t ∧ KeepsFlags [2, 3, 4, 6] s t ∧
        KeepsIndexes s t) ∧
    (∀ f ∈ rorForms b h l, Completes s f 0 fun t =>
      ∃ r : Byte, r.toNat = (f.operand.value s).toNat / 2 + 128 * carryNat s ∧ PlaceHolds f.operand s t r ∧
        flagBit t 0 = (f.operand.value s).getLsbD 0 ∧ ZNFrom r t ∧ KeepsFlags [2, 3, 4, 6] s t ∧
        KeepsIndexes s t)

/-- CMP, CPX, CPY in all their forms (R82, R83, R84): C is "register not below", Z "equal", N "register below", unsigned;
no register and no byte changes. -/
def Obligations.ComparesAreUnsigned : Prop :=
  ∀ (b h l : Byte) (s : State), ∀ e ∈ [(s.A, cmpForms b h l), (s.X, cpxForms b h l), (s.Y, cpyForms b h l)],
    ∀ f ∈ e.2, Completes s f (crossCycle f.extra (f.operand.crossed s)) fun t =>
      let v := f.operand.value s
      (flagBit t 0 = true ↔ e.1.toNat ≥ v.toNat) ∧ (flagBit t 1 = true ↔ e.1.toNat = v.toNat) ∧
      (flagBit t 7 = true ↔ e.1.toNat < v.toNat) ∧ KeepsFlags [2, 3, 4, 6] s t ∧
      t.A = s.A ∧ KeepsIndexes s t ∧ KeepsMemory s t

/-- DEC and INC in their four forms each (R85, R86): modulo 256 at the effective address, Z and N, no carry effect. -/
def Obligations.MemoryIncrementAndDecrementWrap : Prop :=
  ∀ (b h l : Byte) (s : State), s.memory.wf = true →
    ∀ e ∈ [(255, decForms b h l), (1, incForms b h l)], ∀ f ∈ e.2, Completes s f 0 fun t =>
      ∃ r : Byte, r.toNat = ((f.operand.value s).toNat + e.1) % 256 ∧ PlaceHolds f.operand s t r ∧
        ZNFrom r t ∧ KeepsFlags [0, 2, 3, 4, 6] s t ∧ KeepsIndexes s t

/-- DEX, DEY, INX, INY (R87 to R90): modulo 256 in the register, Z and N from it, nothing else. -/
def Obligations.RegisterIncrementAndDecrementWrap : Prop :=
  ∀ s : State,
    (∀ e ∈ [(255, one 0xCA .dex 2), (1, one 0xE8 .inx 2)], Completes s e.2 0 fun t =>
      t.X.toNat = (s.X.toNat + e.1) % 256 ∧ ZNFrom t.X t ∧ KeepsFlags [0, 2, 3, 4, 6] s t ∧
      t.A = s.A ∧ t.Y = s.Y ∧ t.S = s.S ∧ KeepsStack s t ∧ KeepsMemory s t) ∧
    (∀ e ∈ [(255, one 0x88 .dey 2), (1, one 0xC8 .iny 2)], Completes s e.2 0 fun t =>
      t.Y.toNat = (s.Y.toNat + e.1) % 256 ∧ ZNFrom t.Y t ∧ KeepsFlags [0, 2, 3, 4, 6] s t ∧
      t.A = s.A ∧ t.X = s.X ∧ t.S = s.S ∧ KeepsStack s t ∧ KeepsMemory s t)

/-! ### Loads, stores, transfers, flags -/

/-- LDA, LDX, LDY in all their forms (R124, R125, R126): the operand into the register, Z and N from it, nothing else. -/
def Obligations.LoadsCopyTheOperand : Prop :=
  ∀ (b h l : Byte) (s : State),
    (∀ f ∈ ldaForms b h l, Completes s f (crossCycle f.extra (f.operand.crossed s)) fun t =>
      t.A = f.operand.value s ∧ ZNFrom t.A t ∧ KeepsFlags [0, 2, 3, 4, 6] s t ∧ KeepsIndexes s t ∧
      KeepsMemory s t) ∧
    (∀ f ∈ ldxForms b h l, Completes s f (crossCycle f.extra (f.operand.crossed s)) fun t =>
      t.X = f.operand.value s ∧ ZNFrom t.X t ∧ KeepsFlags [0, 2, 3, 4, 6] s t ∧
      t.A = s.A ∧ t.Y = s.Y ∧ t.S = s.S ∧ KeepsStack s t ∧ KeepsMemory s t) ∧
    (∀ f ∈ ldyForms b h l, Completes s f (crossCycle f.extra (f.operand.crossed s)) fun t =>
      t.Y = f.operand.value s ∧ ZNFrom t.Y t ∧ KeepsFlags [0, 2, 3, 4, 6] s t ∧
      t.A = s.A ∧ t.X = s.X ∧ t.S = s.S ∧ KeepsStack s t ∧ KeepsMemory s t)

/-- STA, STX, STY in all their forms (R127, R128, R129): the register at the effective address, at a constant cost, and
every other byte, every register and every flag as before. -/
def Obligations.StoresWriteOneByte : Prop :=
  ∀ (b h l : Byte) (s : State), s.memory.wf = true →
    ∀ e ∈ [(s.A, staForms b h l), (s.X, stxForms b h l), (s.Y, styForms b h l)], ∀ f ∈ e.2,
      Completes s f 0 fun t =>
        t.memRead (f.operand.ea s) = e.1 ∧ KeepsMemoryBut (f.operand.ea s) s t ∧
        t.P = s.P ∧ t.A = s.A ∧ KeepsIndexes s t

/-- TAX, TAY, TXA, TYA, TSX, TXS (R110 to R115): the copy, Z and N from the destination but for TXS, nothing else. -/
def Obligations.TransfersCopyARegister : Prop :=
  ∀ s : State,
    (∀ e ∈ [(s.A, one 0xAA .tax 2), (s.S, one 0xBA .tsx 2)], Completes s e.2 0 fun t =>
      t.X = e.1 ∧ ZNFrom t.X t ∧ KeepsFlags [0, 2, 3, 4, 6] s t ∧
      t.A = s.A ∧ t.Y = s.Y ∧ t.S = s.S ∧ KeepsStack s t ∧ KeepsMemory s t) ∧
    (Completes s (one 0xA8 .tay 2) 0 fun t =>
      t.Y = s.A ∧ ZNFrom t.Y t ∧ KeepsFlags [0, 2, 3, 4, 6] s t ∧
      t.A = s.A ∧ t.X = s.X ∧ t.S = s.S ∧ KeepsStack s t ∧ KeepsMemory s t) ∧
    (∀ e ∈ [(s.X, one 0x8A .txa 2), (s.Y, one 0x98 .tya 2)], Completes s e.2 0 fun t =>
      t.A = e.1 ∧ ZNFrom t.A t ∧ KeepsFlags [0, 2, 3, 4, 6] s t ∧ KeepsIndexes s t ∧ KeepsMemory s t) ∧
    (Completes s (one 0x9A .txs 2) 0 fun t =>
      t.S = s.X ∧ t.P = s.P ∧ t.A = s.A ∧ t.X = s.X ∧ t.Y = s.Y ∧ KeepsStack s t ∧ KeepsMemory s t)

/-- CLC, SEC, CLI, SEI, CLV, CLD, SED (R116 to R122): one bit of `P` gets its value, every other bit but the always-1
bit 5 stays, and nothing else changes. -/
def Obligations.FlagInstructionsWriteOneBit : Prop :=
  ∀ s : State, ∀ e ∈ [(0, false, one 0x18 .clc 2), (0, true, one 0x38 .sec 2), (2, false, one 0x58 .cli 2),
      (2, true, one 0x78 .sei 2), (6, false, one 0xB8 .clv 2), (3, false, one 0xD8 .cld 2),
      (3, true, one 0xF8 .sed 2)],
    Completes s e.2.2 0 fun t =>
      (∀ k : Nat, k < 8 → flagBit t k = if k = e.1 then e.2.1 else if k = 5 then true else flagBit s k) ∧
      t.A = s.A ∧ KeepsIndexes s t ∧ KeepsMemory s t

/-- NOP (R123): 0xEA costs 2 and an illegal NOP what its entry says; nothing changes but `pc` and `cycle`. -/
def Obligations.NopChangesOnlyPcAndCycle : Prop :=
  ∀ s : State, (one 0xEA .nop 2).Encoded ∧
    exec .nop s = .next { s with pc := s.pc + 1, cycle := s.cycle + 2 } ∧
    ∀ op cyc, exec (.nopIllegal op cyc) s = .next { s with pc := s.pc + 1, cycle := s.cycle + cyc }

/-! ### Control transfer -/

/-- The eight branches (R91 to R99): taken exactly when the tested bit of `P` has the wanted value, to the signed displacement
from the next instruction, with the two cycle increments; nothing changes but `pc` and `cycle`. -/
def Obligations.BranchesTestOneFlag : Prop :=
  ∀ (d : Byte) (s : State), ∀ f ∈ branchForms d, f.Encoded ∧ ∃ t, exec f.instr s = .next t ∧
    t = { s with pc := t.pc, cycle := t.cycle } ∧
    (flagBit s f.operand.1 = f.operand.2 →
      (t.pc.toNat : Int) = (s.pc.toNat + 2 + d.toInt) % 65536 ∧
      t.cycle = s.cycle + f.cycles + 1 +
        (if t.pc.toNat / 256 = (s.pc.toNat + 2) % 65536 / 256 then 0 else 1)) ∧
    (flagBit s f.operand.1 ≠ f.operand.2 →
      t.pc.toNat = (s.pc.toNat + 2) % 65536 ∧ t.cycle = s.cycle + f.cycles)

/-- JMP (R100, R101): absolute to the operand; indirect to the word at the pointer, whose second byte stays in the pointer's
page; nothing else changes but `cycle`. -/
def Obligations.JumpsReachTheirTarget : Prop :=
  ∀ (h l : Byte) (s : State),
    (∀ cfg rest, decode cfg (0x4C :: l :: h :: rest) = .ok (.jmpAbs (wordOf h l), rest)) ∧
    (∀ cfg rest, decode cfg (0x6C :: l :: h :: rest) = .ok (.jmpInd (wordOf h l), rest)) ∧
    (∃ t, exec (.jmpAbs (wordOf h l)) s = .next t ∧ t.pc.toNat = 256 * h.toNat + l.toNat ∧
      t = { s with pc := t.pc, cycle := s.cycle + 3 }) ∧
    (∃ t, exec (.jmpInd (wordOf h l)) s = .next t ∧
      t.pc.toNat = 256 * (s.memRead (BitVec.ofNat 16 (256 * h.toNat + (l.toNat + 1) % 256))).toNat +
        (s.memRead (BitVec.ofNat 16 (256 * h.toNat + l.toNat))).toNat ∧
      t = { s with pc := t.pc, cycle := s.cycle + 5 })

/-- JSR (R102): with `S` at most 253 it pushes the address of its own last byte, high byte first, and jumps; with `S` at
least 254 it raises StackOverflow and changes nothing else. -/
def Obligations.JsrPushesItsLastByteAddress : Prop :=
  ∀ (h l : Byte) (s : State), s.stack.wf = true →
    (∀ cfg rest, decode cfg (0x20 :: l :: h :: rest) = .ok (.jsr (wordOf h l), rest)) ∧
    (s.S.toNat ≤ 253 → ∃ t, exec (.jsr (wordOf h l)) s = .next t ∧ t.pc = wordOf h l ∧ t.cycle = s.cycle + 6 ∧
      t.S.toNat = s.S.toNat + 2 ∧
      256 * (t.stackRead (s.S + 1)).toNat + (t.stackRead (s.S + 2)).toNat = (s.pc.toNat + 2) % 65536 ∧
      KeepsStackBut [s.S + 1, s.S + 2] s t ∧
      t = { s with S := t.S, stack := t.stack, pc := t.pc, cycle := t.cycle }) ∧
    (254 ≤ s.S.toNat → exec (.jsr (wordOf h l)) s = .next { s with run := .halted .stackOverflow })

/-- RTS (R103): with `S` at least 2 it goes to one past the popped word; with `S` at most 1 it raises StackUnderflow. -/
def Obligations.RtsReturnsPastThePoppedAddress : Prop :=
  ∀ s : State, (one 0x60 .rts 6).Encoded ∧
    (2 ≤ s.S.toNat → ∃ t, exec .rts s = .next t ∧
      t.pc.toNat = (256 * (s.stackRead (s.S - 1)).toNat + (s.stackRead s.S).toNat + 1) % 65536 ∧
      t.S.toNat + 2 = s.S.toNat ∧ t = { s with S := t.S, pc := t.pc, cycle := s.cycle + 6 }) ∧
    (s.S.toNat ≤ 1 → exec .rts s = .next { s with run := .halted .stackUnderflow })

/-- BRK (R104, R150): with `S` at most 252 it pushes `pc + 2` and a copy of `P` with bit 4 set, sets I, and goes to the word at
0xFFFE, in 7 cycles; with `S` at least 253 it raises StackOverflow. -/
def Obligations.BrkEntersThroughTheVector : Prop :=
  ∀ s : State, s.stack.wf = true →
    (one 0x00 .brk 7).Encoded ∧
    (s.S.toNat ≤ 252 → ∃ t, exec .brk s = .next t ∧
      t.pc.toNat = 256 * (s.memRead 0xFFFF).toNat + (s.memRead 0xFFFE).toNat ∧ t.cycle = s.cycle + 7 ∧
      t.S.toNat = s.S.toNat + 3 ∧
      256 * (t.stackRead (s.S + 1)).toNat + (t.stackRead (s.S + 2)).toNat = (s.pc.toNat + 2) % 65536 ∧
      (∀ k : Nat, k < 8 → (t.stackRead (s.S + 3)).getLsbD k = if k = 4 then true else flagBit s k) ∧
      KeepsStackBut [s.S + 1, s.S + 2, s.S + 3] s t ∧
      flagBit t 2 = true ∧ KeepsFlags [0, 1, 3, 4, 6, 7] s t ∧
      t = { s with S := t.S, stack := t.stack, P := t.P, pc := t.pc, cycle := t.cycle }) ∧
    (253 ≤ s.S.toNat → exec .brk s = .next { s with run := .halted .stackOverflow })

/-- RTI (R105): with `S` at least 3 it pops `P`, bit 5 forced to 1, and `pc`, low byte first, with no increment; with `S` at most 2 it
raises StackUnderflow. -/
def Obligations.RtiRestoresStatusAndPc : Prop :=
  ∀ s : State, (one 0x40 .rti 6).Encoded ∧
    (3 ≤ s.S.toNat → ∃ t, exec .rti s = .next t ∧
      (∀ k : Nat, k < 8 → flagBit t k = if k = 5 then true else (s.stackRead s.S).getLsbD k) ∧
      t.pc.toNat = 256 * (s.stackRead (s.S - 2)).toNat + (s.stackRead (s.S - 1)).toNat ∧
      t.S.toNat + 3 = s.S.toNat ∧ t = { s with S := t.S, P := t.P, pc := t.pc, cycle := s.cycle + 6 }) ∧
    (s.S.toNat ≤ 2 → exec .rti s = .next { s with run := .halted .stackUnderflow })

/-! ### The stack instructions -/

/-- PHA and PHP (R106, R108): with `S` below 255 the byte goes to the next slot, `P` exactly as it stands; no flag and no
register but `S` changes. -/
def Obligations.PushesWriteTheNextSlot : Prop :=
  ∀ s : State, s.stack.wf = true → ∀ e ∈ [(s.A, one 0x48 .pha 3), (s.P, one 0x08 .php 3)],
    (s.S.toNat < 255 → Completes s e.2 0 fun t =>
      t.S.toNat = s.S.toNat + 1 ∧ t.stackRead t.S = e.1 ∧ KeepsStackBut [t.S] s t ∧
      t = { s with S := t.S, stack := t.stack, pc := t.pc, cycle := t.cycle }) ∧
    (s.S.toNat = 255 → exec e.2.instr s = .next { s with run := .halted .stackOverflow })

/-- PLA and PLP (R107, R109): with `S` above 0 the top byte goes to `A`, with Z and N from it, or to `P`, bit 5 forced to 1; the
slot keeps its value. -/
def Obligations.PullsReadTheTopSlot : Prop :=
  ∀ s : State,
    (0 < s.S.toNat →
      (Completes s (one 0x68 .pla 4) 0 fun t =>
        t.A = s.stackRead s.S ∧ t.S.toNat + 1 = s.S.toNat ∧ ZNFrom t.A t ∧ KeepsFlags [0, 2, 3, 4, 6] s t ∧
        t = { s with A := t.A, P := t.P, S := t.S, pc := t.pc, cycle := t.cycle }) ∧
      (Completes s (one 0x28 .plp 4) 0 fun t =>
        (∀ k : Nat, k < 8 → flagBit t k = if k = 5 then true else (s.stackRead s.S).getLsbD k) ∧
        t.S.toNat + 1 = s.S.toNat ∧ t = { s with P := t.P, S := t.S, pc := t.pc, cycle := t.cycle })) ∧
    (s.S.toNat = 0 →
      exec .pla s = .next { s with run := .halted .stackUnderflow } ∧
      exec .plp s = .next { s with run := .halted .stackUnderflow })

/-- The stack faults (R144, R145): an instruction that pushes n bytes raises StackOverflow exactly when fewer than n slots are free,
one that pops n bytes raises StackUnderflow exactly when fewer than n bytes are on the stack; nothing else happens. -/
def Obligations.StackFaultsCheckBeforeWriting : Prop :=
  ∀ (w : Addr) (s : State), s.run = .fetch →
    (∀ e ∈ [(Instr.pha, 1), (.php, 1), (.jsr w, 2), (.brk, 3)],
      (s.S.toNat + e.2 > 255 → exec e.1 s = .next { s with run := .halted .stackOverflow }) ∧
      (s.S.toNat + e.2 ≤ 255 → ∃ t, exec e.1 s = .next t ∧ t.run = .fetch ∧ t.S.toNat = s.S.toNat + e.2)) ∧
    (∀ e ∈ [(Instr.pla, 1), (.plp, 1), (.rts, 2), (.rti, 3)],
      (s.S.toNat < e.2 → exec e.1 s = .next { s with run := .halted .stackUnderflow }) ∧
      (e.2 ≤ s.S.toNat → ∃ t, exec e.1 s = .next t ∧ t.run = .fetch ∧ t.S.toNat + e.2 = s.S.toNat))

/-! ### Pairs of instructions -/

/-- JSR and then RTS come back to the instruction after the JSR with the stack as deep as before (R102, R103). -/
def Obligations.RtsUndoesJsr : Prop :=
  ∀ (w : Addr) (s : State), s.stack.wf = true → s.S.toNat ≤ 253 →
    ∃ t u, exec (.jsr w) s = .next t ∧ exec .rts t = .next u ∧ u.pc = s.pc + 3 ∧
      u = { s with pc := s.pc + 3, stack := t.stack, cycle := s.cycle + 12 }

/-- BRK and then RTI come back to two past the BRK with `P` as before, but for B, which the pushed copy had set (R104,
R105, R151). -/
def Obligations.RtiUndoesBrk : Prop :=
  ∀ s : State, s.stack.wf = true → s.S.toNat ≤ 252 →
    ∃ t u, exec .brk s = .next t ∧ exec .rti t = .next u ∧ u.pc = s.pc + 2 ∧ u.S = s.S ∧
      (∀ k : Nat, k < 8 → flagBit u k = if k = 4 ∨ k = 5 then true else flagBit s k) ∧
      u = { s with pc := u.pc, P := u.P, stack := t.stack, cycle := s.cycle + 13 }

/-- "PHA followed by PLA restores A to its pre-push value and leaves `stack_head` unchanged", whatever `A` becomes in between;
PHP and PLP do the same for `P`, bit 5 read back as 1 (R107, R109). -/
def Obligations.PullsUndoPushes : Prop :=
  ∀ (s : State) (x : Byte), s.stack.wf = true → s.S.toNat < 255 →
    (∃ t u, exec .pha s = .next t ∧ exec .pla { t with A := x } = .next u ∧ u.A = s.A ∧ u.S = s.S) ∧
    (∃ t u, exec .php s = .next t ∧ exec .plp { t with P := x } = .next u ∧ u.S = s.S ∧
      ∀ k : Nat, k < 8 → flagBit u k = if k = 5 then true else flagBit s k)

/-- A store is seen by the next fetch (R30): STA to the byte after itself makes that byte the next opcode. -/
def Obligations.StoredByteIsTheNextOpcode : Prop :=
  ∀ s : State, s.memory.wf = true →
    ∃ t, exec (.staAbs (s.pc + 3)) s = .next t ∧ t.memRead t.pc = s.A ∧
      ∀ cfg i rest, t.run = .fetch → decode cfg [s.A, t.memRead (t.pc + 1), t.memRead (t.pc + 2)] = .ok (i, rest) →
        stepWith cfg t = exec i t
end

