-- ==== Sys2Proof/Laws/Decode.lean ====
section
/-! SUPPORT. The byte halves of a word, and what a hit in the dispatch table says. -/

namespace Sys2Proof

theorem wordOf_toNat (h l : Byte) : (wordOf h l).toNat = 256 * h.toNat + l.toNat := by
  have e : (wordOf h l).toNat = h.toNat <<< 8 ||| l.toNat := BitVec.toNat_append h l
  rw [e, ← Nat.shiftLeft_add_eq_or_of_lt l.isLt, Nat.shiftLeft_eq]
  omega

theorem hi_toNat (w : Addr) : (hi w).toNat = w.toNat / 256 := by
  have := w.isLt
  simp [hi, BitVec.extractLsb'_toNat, Nat.shiftRight_eq_div_pow]
  omega

theorem lo_toNat (w : Addr) : (lo w).toNat = w.toNat % 256 := by
  simp [lo, BitVec.extractLsb'_toNat]

@[simp] theorem hi_wordOf (h l : Byte) : hi (wordOf h l) = h := by
  apply BitVec.eq_of_toNat_eq
  have := l.isLt
  rw [hi_toNat, wordOf_toNat]; omega

@[simp] theorem lo_wordOf (h l : Byte) : lo (wordOf h l) = l := by
  apply BitVec.eq_of_toNat_eq
  have := l.isLt
  rw [lo_toNat, wordOf_toNat]; omega

@[simp] theorem wordOf_hi_lo (w : Addr) : wordOf (hi w) (lo w) = w := by
  apply BitVec.eq_of_toNat_eq
  rw [wordOf_toNat, hi_toNat, lo_toNat]; omega

/-- A row that `lookup` finds stands in the table under the byte asked for. -/
theorem lookup_mem {op : Byte} {row : Row} (h : lookup op = some row) :
    row ∈ dispatchTable ∧ row.opcode = op := by
  refine ⟨List.mem_of_find?_eq_some h, ?_⟩
  have := List.find?_some h
  simpa using this

/-- Decoding by a row of the table (R132). -/
theorem decode_of_lookup {cfg : Config} {op : Byte} {row : Row} (rest : List Byte) (h : lookup op = some row) :
    decode cfg (op :: rest) = row.form.read op rest := by
  simp [decode, h]

/-- Decoding a byte without a row (R37, R38). -/
theorem decode_of_no_row {cfg : Config} {op : Byte} (rest : List Byte) (h : lookup op = none) :
    decode cfg (op :: rest) = match illegalNop cfg op with
      | some e => .ok (.nopIllegal e.1 e.2, rest)
      | none => .error (.unimplementedOpcode op) := by
  cases e : illegalNop cfg op <;> simp [decode, h, e]

end Sys2Proof
end

