-- ==== Sys2Proof/Laws/Exec.lean ====
section
/-! SUPPORT. One equation per constructor: what `exec` runs, in terms of the shared shapes. -/

namespace Sys2Proof.Machine

@[simp] theorem exec_adcImm (v : Byte) (s : State) :
    exec (.adcImm v) s = readInstr State.adc (.immediate v) 2 .none s := rfl
@[simp] theorem exec_adcZp (b : Byte) (s : State) :
    exec (.adcZp b) s = readInstr State.adc (.memory (.zeroPage b)) 3 .none s := rfl
@[simp] theorem exec_adcZpX (b : Byte) (s : State) :
    exec (.adcZpX b) s = readInstr State.adc (.memory (.zeroPageX b)) 4 .none s := rfl
@[simp] theorem exec_adcAbs (w : Addr) (s : State) :
    exec (.adcAbs w) s = readInstr State.adc (.memory (.absolute w)) 4 .none s := rfl
@[simp] theorem exec_adcAbsX (w : Addr) (s : State) :
    exec (.adcAbsX w) s = readInstr State.adc (.memory (.absoluteX w)) 4 .pageCross s := rfl
@[simp] theorem exec_adcAbsY (w : Addr) (s : State) :
    exec (.adcAbsY w) s = readInstr State.adc (.memory (.absoluteY w)) 4 .pageCross s := rfl
@[simp] theorem exec_adcIndX (b : Byte) (s : State) :
    exec (.adcIndX b) s = readInstr State.adc (.memory (.indirectX b)) 6 .none s := rfl
@[simp] theorem exec_adcIndY (b : Byte) (s : State) :
    exec (.adcIndY b) s = readInstr State.adc (.memory (.indirectY b)) 5 .pageCross s := rfl
@[simp] theorem exec_sbcImm (v : Byte) (s : State) :
    exec (.sbcImm v) s = readInstr State.sbc (.immediate v) 2 .none s := rfl
@[simp] theorem exec_sbcZp (b : Byte) (s : State) :
    exec (.sbcZp b) s = readInstr State.sbc (.memory (.zeroPage b)) 3 .none s := rfl
@[simp] theorem exec_sbcZpX (b : Byte) (s : State) :
    exec (.sbcZpX b) s = readInstr State.sbc (.memory (.zeroPageX b)) 4 .none s := rfl
@[simp] theorem exec_sbcAbs (w : Addr) (s : State) :
    exec (.sbcAbs w) s = readInstr State.sbc (.memory (.absolute w)) 4 .none s := rfl
@[simp] theorem exec_sbcAbsX (w : Addr) (s : State) :
    exec (.sbcAbsX w) s = readInstr State.sbc (.memory (.absoluteX w)) 4 .pageCross s := rfl
@[simp] theorem exec_sbcAbsY (w : Addr) (s : State) :
    exec (.sbcAbsY w) s = readInstr State.sbc (.memory (.absoluteY w)) 4 .pageCross s := rfl
@[simp] theorem exec_sbcIndX (b : Byte) (s : State) :
    exec (.sbcIndX b) s = readInstr State.sbc (.memory (.indirectX b)) 6 .none s := rfl
@[simp] theorem exec_sbcIndY (b : Byte) (s : State) :
    exec (.sbcIndY b) s = readInstr State.sbc (.memory (.indirectY b)) 5 .pageCross s := rfl
@[simp] theorem exec_andImm (v : Byte) (s : State) :
    exec (.andImm v) s = readInstr State.andA (.immediate v) 2 .none s := rfl
@[simp] theorem exec_andZp (b : Byte) (s : State) :
    exec (.andZp b) s = readInstr State.andA (.memory (.zeroPage b)) 3 .none s := rfl
@[simp] theorem exec_andZpX (b : Byte) (s : State) :
    exec (.andZpX b) s = readInstr State.andA (.memory (.zeroPageX b)) 4 .none s := rfl
@[simp] theorem exec_andAbs (w : Addr) (s : State) :
    exec (.andAbs w) s = readInstr State.andA (.memory (.absolute w)) 4 .none s := rfl
@[simp] theorem exec_andAbsX (w : Addr) (s : State) :
    exec (.andAbsX w) s = readInstr State.andA (.memory (.absoluteX w)) 4 .pageCross s := rfl
@[simp] theorem exec_andAbsY (w : Addr) (s : State) :
    exec (.andAbsY w) s = readInstr State.andA (.memory (.absoluteY w)) 4 .pageCross s := rfl
@[simp] theorem exec_andIndX (b : Byte) (s : State) :
    exec (.andIndX b) s = readInstr State.andA (.memory (.indirectX b)) 6 .none s := rfl
@[simp] theorem exec_andIndY (b : Byte) (s : State) :
    exec (.andIndY b) s = readInstr State.andA (.memory (.indirectY b)) 5 .pageCross s := rfl
@[simp] theorem exec_oraImm (v : Byte) (s : State) :
    exec (.oraImm v) s = readInstr State.orA (.immediate v) 2 .none s := rfl
@[simp] theorem exec_oraZp (b : Byte) (s : State) :
    exec (.oraZp b) s = readInstr State.orA (.memory (.zeroPage b)) 3 .none s := rfl
@[simp] theorem exec_oraZpX (b : Byte) (s : State) :
    exec (.oraZpX b) s = readInstr State.orA (.memory (.zeroPageX b)) 4 .none s := rfl
@[simp] theorem exec_oraAbs (w : Addr) (s : State) :
    exec (.oraAbs w) s = readInstr State.orA (.memory (.absolute w)) 4 .none s := rfl
@[simp] theorem exec_oraAbsX (w : Addr) (s : State) :
    exec (.oraAbsX w) s = readInstr State.orA (.memory (.absoluteX w)) 4 .pageCross s := rfl
@[simp] theorem exec_oraAbsY (w : Addr) (s : State) :
    exec (.oraAbsY w) s = readInstr State.orA (.memory (.absoluteY w)) 4 .pageCross s := rfl
@[simp] theorem exec_oraIndX (b : Byte) (s : State) :
    exec (.oraIndX b) s = readInstr State.orA (.memory (.indirectX b)) 6 .none s := rfl
@[simp] theorem exec_oraIndY (b : Byte) (s : State) :
    exec (.oraIndY b) s = readInstr State.orA (.memory (.indirectY b)) 5 .pageCross s := rfl
@[simp] theorem exec_eorImm (v : Byte) (s : State) :
    exec (.eorImm v) s = readInstr State.eorA (.immediate v) 2 .none s := rfl
@[simp] theorem exec_eorZp (b : Byte) (s : State) :
    exec (.eorZp b) s = readInstr State.eorA (.memory (.zeroPage b)) 3 .none s := rfl
@[simp] theorem exec_eorZpX (b : Byte) (s : State) :
    exec (.eorZpX b) s = readInstr State.eorA (.memory (.zeroPageX b)) 4 .none s := rfl
@[simp] theorem exec_eorAbs (w : Addr) (s : State) :
    exec (.eorAbs w) s = readInstr State.eorA (.memory (.absolute w)) 4 .none s := rfl
@[simp] theorem exec_eorAbsX (w : Addr) (s : State) :
    exec (.eorAbsX w) s = readInstr State.eorA (.memory (.absoluteX w)) 4 .pageCross s := rfl
@[simp] theorem exec_eorAbsY (w : Addr) (s : State) :
    exec (.eorAbsY w) s = readInstr State.eorA (.memory (.absoluteY w)) 4 .pageCross s := rfl
@[simp] theorem exec_eorIndX (b : Byte) (s : State) :
    exec (.eorIndX b) s = readInstr State.eorA (.memory (.indirectX b)) 6 .none s := rfl
@[simp] theorem exec_eorIndY (b : Byte) (s : State) :
    exec (.eorIndY b) s = readInstr State.eorA (.memory (.indirectY b)) 5 .pageCross s := rfl
@[simp] theorem exec_bitZp (b : Byte) (s : State) :
    exec (.bitZp b) s = readInstr State.bitTest (.memory (.zeroPage b)) 3 .none s := rfl
@[simp] theorem exec_bitAbs (w : Addr) (s : State) :
    exec (.bitAbs w) s = readInstr State.bitTest (.memory (.absolute w)) 4 .none s := rfl
@[simp] theorem exec_aslAcc (s : State) :
    exec .aslAcc s = modifyInstr aslByte .accumulator 2 s := rfl
@[simp] theorem exec_aslZp (b : Byte) (s : State) :
    exec (.aslZp b) s = modifyInstr aslByte (.memory (.zeroPage b)) 5 s := rfl
@[simp] theorem exec_aslZpX (b : Byte) (s : State) :
    exec (.aslZpX b) s = modifyInstr aslByte (.memory (.zeroPageX b)) 6 s := rfl
@[simp] theorem exec_aslAbs (w : Addr) (s : State) :
    exec (.aslAbs w) s = modifyInstr aslByte (.memory (.absolute w)) 6 s := rfl
@[simp] theorem exec_aslAbsX (w : Addr) (s : State) :
    exec (.aslAbsX w) s = modifyInstr aslByte (.memory (.absoluteX w)) 7 s := rfl
@[simp] theorem exec_lsrAcc (s : State) :
    exec .lsrAcc s = modifyInstr lsrByte .accumulator 2 s := rfl
@[simp] theorem exec_lsrZp (b : Byte) (s : State) :
    exec (.lsrZp b) s = modifyInstr lsrByte (.memory (.zeroPage b)) 5 s := rfl
@[simp] theorem exec_lsrZpX (b : Byte) (s : State) :
    exec (.lsrZpX b) s = modifyInstr lsrByte (.memory (.zeroPageX b)) 6 s := rfl
@[simp] theorem exec_lsrAbs (w : Addr) (s : State) :
    exec (.lsrAbs w) s = modifyInstr lsrByte (.memory (.absolute w)) 6 s := rfl
@[simp] theorem exec_lsrAbsX (w : Addr) (s : State) :
    exec (.lsrAbsX w) s = modifyInstr lsrByte (.memory (.absoluteX w)) 7 s := rfl
@[simp] theorem exec_rolAcc (s : State) :
    exec .rolAcc s = modifyInstr rolByte .accumulator 2 s := rfl
@[simp] theorem exec_rolZp (b : Byte) (s : State) :
    exec (.rolZp b) s = modifyInstr rolByte (.memory (.zeroPage b)) 5 s := rfl
@[simp] theorem exec_rolZpX (b : Byte) (s : State) :
    exec (.rolZpX b) s = modifyInstr rolByte (.memory (.zeroPageX b)) 6 s := rfl
@[simp] theorem exec_rolAbs (w : Addr) (s : State) :
    exec (.rolAbs w) s = modifyInstr rolByte (.memory (.absolute w)) 6 s := rfl
@[simp] theorem exec_rolAbsX (w : Addr) (s : State) :
    exec (.rolAbsX w) s = modifyInstr rolByte (.memory (.absoluteX w)) 7 s := rfl
@[simp] theorem exec_rorAcc (s : State) :
    exec .rorAcc s = modifyInstr rorByte .accumulator 2 s := rfl
@[simp] theorem exec_rorZp (b : Byte) (s : State) :
    exec (.rorZp b) s = modifyInstr rorByte (.memory (.zeroPage b)) 5 s := rfl
@[simp] theorem exec_rorZpX (b : Byte) (s : State) :
    exec (.rorZpX b) s = modifyInstr rorByte (.memory (.zeroPageX b)) 6 s := rfl
@[simp] theorem exec_rorAbs (w : Addr) (s : State) :
    exec (.rorAbs w) s = modifyInstr rorByte (.memory (.absolute w)) 6 s := rfl
@[simp] theorem exec_rorAbsX (w : Addr) (s : State) :
    exec (.rorAbsX w) s = modifyInstr rorByte (.memory (.absoluteX w)) 7 s := rfl
@[simp] theorem exec_cmpImm (v : Byte) (s : State) :
    exec (.cmpImm v) s = readInstr State.compareA (.immediate v) 2 .none s := rfl
@[simp] theorem exec_cmpZp (b : Byte) (s : State) :
    exec (.cmpZp b) s = readInstr State.compareA (.memory (.zeroPage b)) 3 .none s := rfl
@[simp] theorem exec_cmpZpX (b : Byte) (s : State) :
    exec (.cmpZpX b) s = readInstr State.compareA (.memory (.zeroPageX b)) 4 .none s := rfl
@[simp] theorem exec_cmpAbs (w : Addr) (s : State) :
    exec (.cmpAbs w) s = readInstr State.compareA (.memory (.absolute w)) 4 .none s := rfl
@[simp] theorem exec_cmpAbsX (w : Addr) (s : State) :
    exec (.cmpAbsX w) s = readInstr State.compareA (.memory (.absoluteX w)) 4 .pageCross s := rfl
@[simp] theorem exec_cmpAbsY (w : Addr) (s : State) :
    exec (.cmpAbsY w) s = readInstr State.compareA (.memory (.absoluteY w)) 4 .pageCross s := rfl
@[simp] theorem exec_cmpIndX (b : Byte) (s : State) :
    exec (.cmpIndX b) s = readInstr State.compareA (.memory (.indirectX b)) 6 .none s := rfl
@[simp] theorem exec_cmpIndY (b : Byte) (s : State) :
    exec (.cmpIndY b) s = readInstr State.compareA (.memory (.indirectY b)) 5 .pageCross s := rfl
@[simp] theorem exec_cpxImm (v : Byte) (s : State) :
    exec (.cpxImm v) s = readInstr State.compareX (.immediate v) 2 .none s := rfl
@[simp] theorem exec_cpxZp (b : Byte) (s : State) :
    exec (.cpxZp b) s = readInstr State.compareX (.memory (.zeroPage b)) 3 .none s := rfl
@[simp] theorem exec_cpxAbs (w : Addr) (s : State) :
    exec (.cpxAbs w) s = readInstr State.compareX (.memory (.absolute w)) 4 .none s := rfl
@[simp] theorem exec_cpyImm (v : Byte) (s : State) :
    exec (.cpyImm v) s = readInstr State.compareY (.immediate v) 2 .none s := rfl
@[simp] theorem exec_cpyZp (b : Byte) (s : State) :
    exec (.cpyZp b) s = readInstr State.compareY (.memory (.zeroPage b)) 3 .none s := rfl
@[simp] theorem exec_cpyAbs (w : Addr) (s : State) :
    exec (.cpyAbs w) s = readInstr State.compareY (.memory (.absolute w)) 4 .none s := rfl
@[simp] theorem exec_decZp (b : Byte) (s : State) :
    exec (.decZp b) s = modifyInstr decByte (.memory (.zeroPage b)) 5 s := rfl
@[simp] theorem exec_decZpX (b : Byte) (s : State) :
    exec (.decZpX b) s = modifyInstr decByte (.memory (.zeroPageX b)) 6 s := rfl
@[simp] theorem exec_decAbs (w : Addr) (s : State) :
    exec (.decAbs w) s = modifyInstr decByte (.memory (.absolute w)) 6 s := rfl
@[simp] theorem exec_decAbsX (w : Addr) (s : State) :
    exec (.decAbsX w) s = modifyInstr decByte (.memory (.absoluteX w)) 7 s := rfl
@[simp] theorem exec_incZp (b : Byte) (s : State) :
    exec (.incZp b) s = modifyInstr incByte (.memory (.zeroPage b)) 5 s := rfl
@[simp] theorem exec_incZpX (b : Byte) (s : State) :
    exec (.incZpX b) s = modifyInstr incByte (.memory (.zeroPageX b)) 6 s := rfl
@[simp] theorem exec_incAbs (w : Addr) (s : State) :
    exec (.incAbs w) s = modifyInstr incByte (.memory (.absolute w)) 6 s := rfl
@[simp] theorem exec_incAbsX (w : Addr) (s : State) :
    exec (.incAbsX w) s = modifyInstr incByte (.memory (.absoluteX w)) 7 s := rfl
@[simp] theorem exec_dex (s : State) :
    exec .dex s = impliedInstr (fun t => t.loadX (t.X - 1)) 2 s := rfl
@[simp] theorem exec_dey (s : State) :
    exec .dey s = impliedInstr (fun t => t.loadY (t.Y - 1)) 2 s := rfl
@[simp] theorem exec_inx (s : State) :
    exec .inx s = impliedInstr (fun t => t.loadX (t.X + 1)) 2 s := rfl
@[simp] theorem exec_iny (s : State) :
    exec .iny s = impliedInstr (fun t => t.loadY (t.Y + 1)) 2 s := rfl
@[simp] theorem exec_bcc (d : Byte) (s : State) :
    exec (.bcc d) s = branchInstr (!test s.P .C) d s := rfl
@[simp] theorem exec_bcs (d : Byte) (s : State) :
    exec (.bcs d) s = branchInstr (test s.P .C) d s := rfl
@[simp] theorem exec_beq (d : Byte) (s : State) :
    exec (.beq d) s = branchInstr (test s.P .Z) d s := rfl
@[simp] theorem exec_bne (d : Byte) (s : State) :
    exec (.bne d) s = branchInstr (!test s.P .Z) d s := rfl
@[simp] theorem exec_bmi (d : Byte) (s : State) :
    exec (.bmi d) s = branchInstr (test s.P .N) d s := rfl
@[simp] theorem exec_bpl (d : Byte) (s : State) :
    exec (.bpl d) s = branchInstr (!test s.P .N) d s := rfl
@[simp] theorem exec_bvc (d : Byte) (s : State) :
    exec (.bvc d) s = branchInstr (!test s.P .V) d s := rfl
@[simp] theorem exec_bvs (d : Byte) (s : State) :
    exec (.bvs d) s = branchInstr (test s.P .V) d s := rfl
@[simp] theorem exec_jmpAbs (w : Addr) (s : State) :
    exec (.jmpAbs w) s = .next (s.goto w 3) := rfl
@[simp] theorem exec_jmpInd (w : Addr) (s : State) :
    exec (.jmpInd w) s = .next (s.goto (indirectTarget s w) 5) := rfl
@[simp] theorem exec_jsr (w : Addr) (s : State) :
    exec (.jsr w) s = commit s ((s.pushWord (s.pc + 2)).bind (fun t => .ok (t.goto w 6))) := rfl
@[simp] theorem exec_rts (s : State) :
    exec .rts s = commit s (s.popWord.bind (fun q => .ok (q.2.goto (q.1 + 1) 6))) := rfl
@[simp] theorem exec_brk (s : State) :
    exec .brk s = commit s (s.enterTrap 7) := rfl
@[simp] theorem exec_rti (s : State) :
    exec .rti s = commit s (s.leaveTrap 6) := rfl
@[simp] theorem exec_pha (s : State) :
    exec .pha s = commit s ((s.push s.A).bind (fun t => .ok (t.advance (Mode.length .implied) 3))) := rfl
@[simp] theorem exec_pla (s : State) :
    exec .pla s = commit s (s.pop.bind (fun r => .ok ((r.2.loadA r.1).advance (Mode.length .implied) 4))) := rfl
@[simp] theorem exec_php (s : State) :
    exec .php s = commit s ((s.push s.P).bind (fun t => .ok (t.advance (Mode.length .implied) 3))) := rfl
@[simp] theorem exec_plp (s : State) :
    exec .plp s = commit s (s.pop.bind (fun r => .ok ((r.2.setP (r.1 ||| mask1)).advance (Mode.length .implied) 4))) := rfl
@[simp] theorem exec_tax (s : State) :
    exec .tax s = impliedInstr (fun t => t.loadX t.A) 2 s := rfl
@[simp] theorem exec_tay (s : State) :
    exec .tay s = impliedInstr (fun t => t.loadY t.A) 2 s := rfl
@[simp] theorem exec_txa (s : State) :
    exec .txa s = impliedInstr (fun t => t.loadA t.X) 2 s := rfl
@[simp] theorem exec_tya (s : State) :
    exec .tya s = impliedInstr (fun t => t.loadA t.Y) 2 s := rfl
@[simp] theorem exec_tsx (s : State) :
    exec .tsx s = impliedInstr (fun t => t.loadX t.S) 2 s := rfl
@[simp] theorem exec_txs (s : State) :
    exec .txs s = impliedInstr (fun t => { t with S := t.X }) 2 s := rfl
@[simp] theorem exec_clc (s : State) :
    exec .clc s = impliedInstr (fun t => t.setP (clearCarry t.P)) 2 s := rfl
@[simp] theorem exec_sec (s : State) :
    exec .sec s = impliedInstr (fun t => t.setP (setCarry t.P)) 2 s := rfl
@[simp] theorem exec_cli (s : State) :
    exec .cli s = impliedInstr (fun t => t.setP (clearInterrupt t.P)) 2 s := rfl
@[simp] theorem exec_sei (s : State) :
    exec .sei s = impliedInstr (fun t => t.setP (setInterrupt t.P)) 2 s := rfl
@[simp] theorem exec_clv (s : State) :
    exec .clv s = impliedInstr (fun t => t.setP (clearOverflow t.P)) 2 s := rfl
@[simp] theorem exec_cld (s : State) :
    exec .cld s = impliedInstr (fun t => t.setP (clearDecimal t.P)) 2 s := rfl
@[simp] theorem exec_sed (s : State) :
    exec .sed s = impliedInstr (fun t => t.setP (setDecimal t.P)) 2 s := rfl
@[simp] theorem exec_nop (s : State) :
    exec .nop s = impliedInstr (fun t => t) 2 s := rfl
@[simp] theorem exec_ldaImm (v : Byte) (s : State) :
    exec (.ldaImm v) s = readInstr State.loadA (.immediate v) 2 .none s := rfl
@[simp] theorem exec_ldaZp (b : Byte) (s : State) :
    exec (.ldaZp b) s = readInstr State.loadA (.memory (.zeroPage b)) 3 .none s := rfl
@[simp] theorem exec_ldaZpX (b : Byte) (s : State) :
    exec (.ldaZpX b) s = readInstr State.loadA (.memory (.zeroPageX b)) 4 .none s := rfl
@[simp] theorem exec_ldaAbs (w : Addr) (s : State) :
    exec (.ldaAbs w) s = readInstr State.loadA (.memory (.absolute w)) 4 .none s := rfl
@[simp] theorem exec_ldaAbsX (w : Addr) (s : State) :
    exec (.ldaAbsX w) s = readInstr State.loadA (.memory (.absoluteX w)) 4 .pageCross s := rfl
@[simp] theorem exec_ldaAbsY (w : Addr) (s : State) :
    exec (.ldaAbsY w) s = readInstr State.loadA (.memory (.absoluteY w)) 4 .pageCross s := rfl
@[simp] theorem exec_ldaIndX (b : Byte) (s : State) :
    exec (.ldaIndX b) s = readInstr State.loadA (.memory (.indirectX b)) 6 .none s := rfl
@[simp] theorem exec_ldaIndY (b : Byte) (s : State) :
    exec (.ldaIndY b) s = readInstr State.loadA (.memory (.indirectY b)) 5 .pageCross s := rfl
@[simp] theorem exec_ldxImm (v : Byte) (s : State) :
    exec (.ldxImm v) s = readInstr State.loadX (.immediate v) 2 .none s := rfl
@[simp] theorem exec_ldxZp (b : Byte) (s : State) :
    exec (.ldxZp b) s = readInstr State.loadX (.memory (.zeroPage b)) 3 .none s := rfl
@[simp] theorem exec_ldxZpY (b : Byte) (s : State) :
    exec (.ldxZpY b) s = readInstr State.loadX (.memory (.zeroPageY b)) 4 .none s := rfl
@[simp] theorem exec_ldxAbs (w : Addr) (s : State) :
    exec (.ldxAbs w) s = readInstr State.loadX (.memory (.absolute w)) 4 .none s := rfl
@[simp] theorem exec_ldxAbsY (w : Addr) (s : State) :
    exec (.ldxAbsY w) s = readInstr State.loadX (.memory (.absoluteY w)) 4 .pageCross s := rfl
@[simp] theorem exec_ldyImm (v : Byte) (s : State) :
    exec (.ldyImm v) s = readInstr State.loadY (.immediate v) 2 .none s := rfl
@[simp] theorem exec_ldyZp (b : Byte) (s : State) :
    exec (.ldyZp b) s = readInstr State.loadY (.memory (.zeroPage b)) 3 .none s := rfl
@[simp] theorem exec_ldyZpX (b : Byte) (s : State) :
    exec (.ldyZpX b) s = readInstr State.loadY (.memory (.zeroPageX b)) 4 .none s := rfl
@[simp] theorem exec_ldyAbs (w : Addr) (s : State) :
    exec (.ldyAbs w) s = readInstr State.loadY (.memory (.absolute w)) 4 .none s := rfl
@[simp] theorem exec_ldyAbsX (w : Addr) (s : State) :
    exec (.ldyAbsX w) s = readInstr State.loadY (.memory (.absoluteX w)) 4 .pageCross s := rfl
@[simp] theorem exec_staZp (b : Byte) (s : State) :
    exec (.staZp b) s = storeInstr s.A (.zeroPage b) 3 s := rfl
@[simp] theorem exec_staZpX (b : Byte) (s : State) :
    exec (.staZpX b) s = storeInstr s.A (.zeroPageX b) 4 s := rfl
@[simp] theorem exec_staAbs (w : Addr) (s : State) :
    exec (.staAbs w) s = storeInstr s.A (.absolute w) 4 s := rfl
@[simp] theorem exec_staAbsX (w : Addr) (s : State) :
    exec (.staAbsX w) s = storeInstr s.A (.absoluteX w) 5 s := rfl
@[simp] theorem exec_staAbsY (w : Addr) (s : State) :
    exec (.staAbsY w) s = storeInstr s.A (.absoluteY w) 5 s := rfl
@[simp] theorem exec_staIndX (b : Byte) (s : State) :
    exec (.staIndX b) s = storeInstr s.A (.indirectX b) 6 s := rfl
@[simp] theorem exec_staIndY (b : Byte) (s : State) :
    exec (.staIndY b) s = storeInstr s.A (.indirectY b) 6 s := rfl
@[simp] theorem exec_stxZp (b : Byte) (s : State) :
    exec (.stxZp b) s = storeInstr s.X (.zeroPage b) 3 s := rfl
@[simp] theorem exec_stxZpY (b : Byte) (s : State) :
    exec (.stxZpY b) s = storeInstr s.X (.zeroPageY b) 4 s := rfl
@[simp] theorem exec_stxAbs (w : Addr) (s : State) :
    exec (.stxAbs w) s = storeInstr s.X (.absolute w) 4 s := rfl
@[simp] theorem exec_styZp (b : Byte) (s : State) :
    exec (.styZp b) s = storeInstr s.Y (.zeroPage b) 3 s := rfl
@[simp] theorem exec_styZpX (b : Byte) (s : State) :
    exec (.styZpX b) s = storeInstr s.Y (.zeroPageX b) 4 s := rfl
@[simp] theorem exec_styAbs (w : Addr) (s : State) :
    exec (.styAbs w) s = storeInstr s.Y (.absolute w) 4 s := rfl
@[simp] theorem exec_nopIllegal (op : Byte) (cyc : Nat) (s : State) :
    exec (.nopIllegal op cyc) s = impliedInstr (fun t => t) cyc s := rfl

end Sys2Proof.Machine
end

