-- ==== Sys2Proof/Laws/Flags.lean ====
section
/-! SUPPORT. The flag algebra unit bit by bit. -/

namespace Sys2Proof.Machine

/-- The flag's bit position (`40_flag_algebra.md` R41). -/
def Flag.bit : Flag → Nat
  | .C => 0
  | .Z => 1
  | .I => 2
  | .D => 3
  | .V => 6
  | .N => 7

theorem test_eq_getLsbD (p : Byte) (f : Flag) : test p f = p.getLsbD f.bit := by
  revert p; cases f <;> decide +kernel

/-- `assign` writes its flag's bit, sets bit 5 and leaves the others (R51). -/
theorem assign_getLsbD (p : Byte) (f : Flag) (b : Bool) (k : Nat) (hk : k < 8) :
    (assign p f b).getLsbD k = if k = 5 then true else if k = f.bit then b else p.getLsbD k := by
  revert p
  interval_cases k <;> cases f <;> cases b <;> decide +kernel

theorem assign_bit5 (p : Byte) (f : Flag) (b : Bool) : (assign p f b).getLsbD 5 = true := by
  rw [assign_getLsbD _ _ _ _ (by omega)]; rfl

/-- `setZN` writes Z and N, sets bit 5 and leaves the others (R52). -/
theorem setZN_getLsbD (p v : Byte) (k : Nat) (hk : k < 8) :
    (setZN p v).getLsbD k =
      if k = 5 then true else if k = 1 then v == 0 else if k = 7 then v.getLsbD 7 else p.getLsbD k := by
  have hv : v.msb = v.getLsbD 7 := by simp [BitVec.msb_eq_getLsbD_last]
  rw [setZN, assign_getLsbD _ _ _ _ hk, assign_getLsbD _ _ _ _ hk, hv]
  interval_cases k <;> simp [Flag.bit]

theorem carryIn_eq (p : Byte) : carryIn p = if p.getLsbD 0 then 1 else 0 := by
  simp [carryIn, test_eq_getLsbD, Flag.bit]

theorem adcFlags_getLsbD (p a v : Byte) (k : Nat) (hk : k < 8) :
    (adcFlags p a v).getLsbD k =
      if k = 0 then decide (adcSum a v (carryIn p) > 255)
      else if k = 1 then adcResult a v (carryIn p) == 0
      else if k = 5 then true
      else if k = 6 then adcOverflow a v (adcResult a v (carryIn p))
      else if k = 7 then (adcResult a v (carryIn p)).getLsbD 7
      else p.getLsbD k := by
  simp only [adcFlags, setZN_getLsbD _ _ _ hk, assign_getLsbD _ _ _ _ hk]
  interval_cases k <;> simp [Flag.bit]

theorem bitFlags_getLsbD (p a v : Byte) (k : Nat) (hk : k < 8) :
    (bitFlags p a v).getLsbD k =
      if k = 1 then (a &&& v) == 0 else if k = 5 then true else if k = 6 then v.getLsbD 6
      else if k = 7 then v.getLsbD 7 else p.getLsbD k := by
  simp only [bitFlags, assign_getLsbD _ _ _ _ hk]
  interval_cases k <;> simp [Flag.bit]

theorem compareFlags_getLsbD (p r v : Byte) (k : Nat) (hk : k < 8) :
    (compareFlags p r v).getLsbD k =
      if k = 0 then decide (r.toNat ≥ v.toNat) else if k = 1 then r == v else if k = 5 then true
      else if k = 7 then decide (r.toNat < v.toNat) else p.getLsbD k := by
  simp only [compareFlags, assign_getLsbD _ _ _ _ hk]
  interval_cases k <;> simp [Flag.bit]

theorem shiftFlags_getLsbD (p r : Byte) (out : Bool) (k : Nat) (hk : k < 8) :
    (shiftFlags p r out).getLsbD k =
      if k = 0 then out else if k = 1 then r == 0 else if k = 5 then true
      else if k = 7 then r.getLsbD 7 else p.getLsbD k := by
  simp only [shiftFlags, setZN_getLsbD _ _ _ hk, assign_getLsbD _ _ _ _ hk]
  interval_cases k <;> simp [Flag.bit]

/-- The result of an addition as a number (R70). -/
theorem adcResult_toNat (a v : Byte) (c : Nat) : (adcResult a v c).toNat = (a.toNat + v.toNat + c) % 256 := by
  simp [adcResult, adcSum]

/-- The overflow formula of R70 in words: `a` and `v` have the same sign and `r` has the other. -/
theorem adcOverflow_iff (a v r : Byte) :
    adcOverflow a v r = true ↔ a.getLsbD 7 = v.getLsbD 7 ∧ r.getLsbD 7 ≠ a.getLsbD 7 := by
  have h : ∀ x : Byte, ((x &&& 0x80) != 0) = x.getLsbD 7 := by decide +kernel
  rw [adcOverflow, h]
  simp only [BitVec.getLsbD_and, BitVec.getLsbD_xor]
  cases a.getLsbD 7 <;> cases v.getLsbD 7 <;> cases r.getLsbD 7 <;> simp

end Sys2Proof.Machine
end

