-- ==== Sys2Proof/Laws/State.lean ====
section
/-! SUPPORT. One lemma per field per named update of the state. -/

namespace Sys2Proof.Machine

@[simp] theorem State.memWrite_A (s : State) (a : Addr) (v : Byte) : (s.memWrite a v).A = s.A := rfl
@[simp] theorem State.memWrite_X (s : State) (a : Addr) (v : Byte) : (s.memWrite a v).X = s.X := rfl
@[simp] theorem State.memWrite_Y (s : State) (a : Addr) (v : Byte) : (s.memWrite a v).Y = s.Y := rfl
@[simp] theorem State.memWrite_P (s : State) (a : Addr) (v : Byte) : (s.memWrite a v).P = s.P := rfl
@[simp] theorem State.memWrite_S (s : State) (a : Addr) (v : Byte) : (s.memWrite a v).S = s.S := rfl
@[simp] theorem State.memWrite_stack (s : State) (a : Addr) (v : Byte) : (s.memWrite a v).stack = s.stack := rfl
@[simp] theorem State.memWrite_pc (s : State) (a : Addr) (v : Byte) : (s.memWrite a v).pc = s.pc := rfl
@[simp] theorem State.memWrite_memory (s : State) (a : Addr) (v : Byte) : (s.memWrite a v).memory = s.memory.write a.toNat v := rfl
@[simp] theorem State.memWrite_cycle (s : State) (a : Addr) (v : Byte) : (s.memWrite a v).cycle = s.cycle := rfl
@[simp] theorem State.memWrite_run (s : State) (a : Addr) (v : Byte) : (s.memWrite a v).run = s.run := rfl

@[simp] theorem State.loadA_A (s : State) (v : Byte) : (s.loadA v).A = v := rfl
@[simp] theorem State.loadA_X (s : State) (v : Byte) : (s.loadA v).X = s.X := rfl
@[simp] theorem State.loadA_Y (s : State) (v : Byte) : (s.loadA v).Y = s.Y := rfl
@[simp] theorem State.loadA_P (s : State) (v : Byte) : (s.loadA v).P = setZN s.P v := rfl
@[simp] theorem State.loadA_S (s : State) (v : Byte) : (s.loadA v).S = s.S := rfl
@[simp] theorem State.loadA_stack (s : State) (v : Byte) : (s.loadA v).stack = s.stack := rfl
@[simp] theorem State.loadA_pc (s : State) (v : Byte) : (s.loadA v).pc = s.pc := rfl
@[simp] theorem State.loadA_memory (s : State) (v : Byte) : (s.loadA v).memory = s.memory := rfl
@[simp] theorem State.loadA_cycle (s : State) (v : Byte) : (s.loadA v).cycle = s.cycle := rfl
@[simp] theorem State.loadA_run (s : State) (v : Byte) : (s.loadA v).run = s.run := rfl

@[simp] theorem State.loadX_A (s : State) (v : Byte) : (s.loadX v).A = s.A := rfl
@[simp] theorem State.loadX_X (s : State) (v : Byte) : (s.loadX v).X = v := rfl
@[simp] theorem State.loadX_Y (s : State) (v : Byte) : (s.loadX v).Y = s.Y := rfl
@[simp] theorem State.loadX_P (s : State) (v : Byte) : (s.loadX v).P = setZN s.P v := rfl
@[simp] theorem State.loadX_S (s : State) (v : Byte) : (s.loadX v).S = s.S := rfl
@[simp] theorem State.loadX_stack (s : State) (v : Byte) : (s.loadX v).stack = s.stack := rfl
@[simp] theorem State.loadX_pc (s : State) (v : Byte) : (s.loadX v).pc = s.pc := rfl
@[simp] theorem State.loadX_memory (s : State) (v : Byte) : (s.loadX v).memory = s.memory := rfl
@[simp] theorem State.loadX_cycle (s : State) (v : Byte) : (s.loadX v).cycle = s.cycle := rfl
@[simp] theorem State.loadX_run (s : State) (v : Byte) : (s.loadX v).run = s.run := rfl

@[simp] theorem State.loadY_A (s : State) (v : Byte) : (s.loadY v).A = s.A := rfl
@[simp] theorem State.loadY_X (s : State) (v : Byte) : (s.loadY v).X = s.X := rfl
@[simp] theorem State.loadY_Y (s : State) (v : Byte) : (s.loadY v).Y = v := rfl
@[simp] theorem State.loadY_P (s : State) (v : Byte) : (s.loadY v).P = setZN s.P v := rfl
@[simp] theorem State.loadY_S (s : State) (v : Byte) : (s.loadY v).S = s.S := rfl
@[simp] theorem State.loadY_stack (s : State) (v : Byte) : (s.loadY v).stack = s.stack := rfl
@[simp] theorem State.loadY_pc (s : State) (v : Byte) : (s.loadY v).pc = s.pc := rfl
@[simp] theorem State.loadY_memory (s : State) (v : Byte) : (s.loadY v).memory = s.memory := rfl
@[simp] theorem State.loadY_cycle (s : State) (v : Byte) : (s.loadY v).cycle = s.cycle := rfl
@[simp] theorem State.loadY_run (s : State) (v : Byte) : (s.loadY v).run = s.run := rfl

@[simp] theorem State.setP_A (s : State) (p : Byte) : (s.setP p).A = s.A := rfl
@[simp] theorem State.setP_X (s : State) (p : Byte) : (s.setP p).X = s.X := rfl
@[simp] theorem State.setP_Y (s : State) (p : Byte) : (s.setP p).Y = s.Y := rfl
@[simp] theorem State.setP_P (s : State) (p : Byte) : (s.setP p).P = p := rfl
@[simp] theorem State.setP_S (s : State) (p : Byte) : (s.setP p).S = s.S := rfl
@[simp] theorem State.setP_stack (s : State) (p : Byte) : (s.setP p).stack = s.stack := rfl
@[simp] theorem State.setP_pc (s : State) (p : Byte) : (s.setP p).pc = s.pc := rfl
@[simp] theorem State.setP_memory (s : State) (p : Byte) : (s.setP p).memory = s.memory := rfl
@[simp] theorem State.setP_cycle (s : State) (p : Byte) : (s.setP p).cycle = s.cycle := rfl
@[simp] theorem State.setP_run (s : State) (p : Byte) : (s.setP p).run = s.run := rfl

@[simp] theorem State.advance_A (s : State) (len cost : Nat) : (s.advance len cost).A = s.A := rfl
@[simp] theorem State.advance_X (s : State) (len cost : Nat) : (s.advance len cost).X = s.X := rfl
@[simp] theorem State.advance_Y (s : State) (len cost : Nat) : (s.advance len cost).Y = s.Y := rfl
@[simp] theorem State.advance_P (s : State) (len cost : Nat) : (s.advance len cost).P = s.P := rfl
@[simp] theorem State.advance_S (s : State) (len cost : Nat) : (s.advance len cost).S = s.S := rfl
@[simp] theorem State.advance_stack (s : State) (len cost : Nat) : (s.advance len cost).stack = s.stack := rfl
@[simp] theorem State.advance_pc (s : State) (len cost : Nat) : (s.advance len cost).pc = s.pc + BitVec.ofNat 16 len := rfl
@[simp] theorem State.advance_memory (s : State) (len cost : Nat) : (s.advance len cost).memory = s.memory := rfl
@[simp] theorem State.advance_cycle (s : State) (len cost : Nat) : (s.advance len cost).cycle = s.cycle + cost := rfl
@[simp] theorem State.advance_run (s : State) (len cost : Nat) : (s.advance len cost).run = s.run := rfl

@[simp] theorem State.goto_A (s : State) (target : Addr) (cost : Nat) : (s.goto target cost).A = s.A := rfl
@[simp] theorem State.goto_X (s : State) (target : Addr) (cost : Nat) : (s.goto target cost).X = s.X := rfl
@[simp] theorem State.goto_Y (s : State) (target : Addr) (cost : Nat) : (s.goto target cost).Y = s.Y := rfl
@[simp] theorem State.goto_P (s : State) (target : Addr) (cost : Nat) : (s.goto target cost).P = s.P := rfl
@[simp] theorem State.goto_S (s : State) (target : Addr) (cost : Nat) : (s.goto target cost).S = s.S := rfl
@[simp] theorem State.goto_stack (s : State) (target : Addr) (cost : Nat) : (s.goto target cost).stack = s.stack := rfl
@[simp] theorem State.goto_pc (s : State) (target : Addr) (cost : Nat) : (s.goto target cost).pc = target := rfl
@[simp] theorem State.goto_memory (s : State) (target : Addr) (cost : Nat) : (s.goto target cost).memory = s.memory := rfl
@[simp] theorem State.goto_cycle (s : State) (target : Addr) (cost : Nat) : (s.goto target cost).cycle = s.cycle + cost := rfl
@[simp] theorem State.goto_run (s : State) (target : Addr) (cost : Nat) : (s.goto target cost).run = s.run := rfl

@[simp] theorem State.raise_A (s : State) (f : Fault) : (s.raise f).A = s.A := rfl
@[simp] theorem State.raise_X (s : State) (f : Fault) : (s.raise f).X = s.X := rfl
@[simp] theorem State.raise_Y (s : State) (f : Fault) : (s.raise f).Y = s.Y := rfl
@[simp] theorem State.raise_P (s : State) (f : Fault) : (s.raise f).P = s.P := rfl
@[simp] theorem State.raise_S (s : State) (f : Fault) : (s.raise f).S = s.S := rfl
@[simp] theorem State.raise_stack (s : State) (f : Fault) : (s.raise f).stack = s.stack := rfl
@[simp] theorem State.raise_pc (s : State) (f : Fault) : (s.raise f).pc = s.pc := rfl
@[simp] theorem State.raise_memory (s : State) (f : Fault) : (s.raise f).memory = s.memory := rfl
@[simp] theorem State.raise_cycle (s : State) (f : Fault) : (s.raise f).cycle = s.cycle := rfl
@[simp] theorem State.raise_run (s : State) (f : Fault) : (s.raise f).run = .halted f := rfl

@[simp] theorem State.memRead_advance (s : State) (len cost : Nat) (a : Addr) :
    (s.advance len cost).memRead a = s.memRead a := rfl
@[simp] theorem State.memRead_goto (s : State) (w : Addr) (cost : Nat) (a : Addr) :
    (s.goto w cost).memRead a = s.memRead a := rfl
@[simp] theorem State.memRead_raise (s : State) (f : Fault) (a : Addr) : (s.raise f).memRead a = s.memRead a := rfl
@[simp] theorem State.memRead_setP (s : State) (p : Byte) (a : Addr) : (s.setP p).memRead a = s.memRead a := rfl
@[simp] theorem State.memRead_loadA (s : State) (v : Byte) (a : Addr) : (s.loadA v).memRead a = s.memRead a := rfl
@[simp] theorem State.memRead_loadX (s : State) (v : Byte) (a : Addr) : (s.loadX v).memRead a = s.memRead a := rfl
@[simp] theorem State.memRead_loadY (s : State) (v : Byte) (a : Addr) : (s.loadY v).memRead a = s.memRead a := rfl
@[simp] theorem State.stackRead_advance (s : State) (len cost : Nat) (i : Byte) :
    (s.advance len cost).stackRead i = s.stackRead i := rfl
@[simp] theorem State.stackRead_goto (s : State) (w : Addr) (cost : Nat) (i : Byte) :
    (s.goto w cost).stackRead i = s.stackRead i := rfl
@[simp] theorem State.stackRead_setP (s : State) (p i : Byte) : (s.setP p).stackRead i = s.stackRead i := rfl
@[simp] theorem State.stackRead_loadA (s : State) (v i : Byte) : (s.loadA v).stackRead i = s.stackRead i := rfl
@[simp] theorem State.stackRead_memWrite (s : State) (a : Addr) (v i : Byte) :
    (s.memWrite a v).stackRead i = s.stackRead i := rfl

@[simp] theorem State.fault_raise (s : State) (f : Fault) : (s.raise f).fault = some f := rfl

end Sys2Proof.Machine
end

