-- ==== Sys2Proof/Laws/Memory.lean ====
section
/-! SUPPORT. What `Memory.read` and `Memory.write` do, and that the canonical form is kept. -/

namespace Sys2Proof.Machine

theorem Memory.above_mono {m : Memory} {a b : Nat} (h : Memory.above b m = true) (hab : a ≤ b) :
    Memory.above a m = true := by
  induction m with
  | nil => rfl
  | cons e m ih =>
    simp only [Memory.above, Bool.and_eq_true, decide_eq_true_eq] at h ⊢
    exact ⟨by omega, ih h.2⟩

/-- An address at or below the bound of `above` is not listed. -/
theorem Memory.read_of_above {m : Memory} {a b : Nat} (h : Memory.above b m = true) (hab : a ≤ b) :
    m.read a = Config.unlistedByte := by
  induction m with
  | nil => rfl
  | cons e m ih =>
    simp only [Memory.above, Bool.and_eq_true, decide_eq_true_eq] at h
    rw [Memory.read, if_neg (by omega), ih h.2]

theorem Memory.above_write {m : Memory} {a b : Nat} (v : Byte) (h : Memory.above b m = true) (hab : b < a) :
    Memory.above b (m.write a v) = true := by
  induction m with
  | nil => by_cases hv : v = Config.unlistedByte <;> simp [Memory.write, Memory.above, hv, hab]
  | cons e m ih =>
    simp only [Memory.above, Bool.and_eq_true, decide_eq_true_eq] at h
    simp only [Memory.write]
    split <;> [split; (split <;> [split; skip])] <;>
      simp_all [Memory.above]

/-- A write keeps the canonical form. -/
theorem Memory.write_wf {m : Memory} (a : Nat) (v : Byte) (h : m.wf = true) : (m.write a v).wf = true := by
  induction m with
  | nil => by_cases hv : v = Config.unlistedByte <;> simp [Memory.write, Memory.wf, Memory.above, hv]
  | cons e m ih =>
    obtain ⟨b, w⟩ := e
    simp only [Memory.wf, Bool.and_eq_true, decide_eq_true_eq] at h
    obtain ⟨⟨hw, hb⟩, hm⟩ := h
    simp only [Memory.write]
    split
    · next hab =>
      split
      · simp [Memory.wf, hw, hb, hm]
      · next hv => simp [Memory.wf, Memory.above, hv, hw, hb, hm, hab, Memory.above_mono hb (Nat.le_of_lt hab)]
    · next hab =>
      split
      · next hEq =>
        subst hEq
        split
        · exact hm
        · next hv => simp [Memory.wf, hv, hb, hm]
      · next hEq =>
        have hlt : b < a := by omega
        simp [Memory.wf, hw, ih hm, Memory.above_write v hb hlt]

/-- A write keeps every address below the size of the store. -/
theorem Memory.write_below {m : Memory} {n a : Nat} (v : Byte) (h : m.below n = true) (ha : a < n) :
    (m.write a v).below n = true := by
  induction m with
  | nil => by_cases hv : v = Config.unlistedByte <;> simp [Memory.write, Memory.below, hv, ha]
  | cons e m ih =>
    simp only [Memory.below, Bool.and_eq_true, decide_eq_true_eq] at h
    simp only [Memory.write]
    split <;> [split; (split <;> [split; skip])] <;>
      simp_all [Memory.below]

/-- A write leaves every other address alone. -/
theorem Memory.read_write_ne {m : Memory} {a c : Nat} (v : Byte) (hc : c ≠ a) :
    (m.write a v).read c = m.read c := by
  induction m with
  | nil => by_cases hv : v = Config.unlistedByte <;> simp [Memory.write, Memory.read, hv, hc.symm]
  | cons e m ih =>
    simp only [Memory.write]
    split <;> [split; (split <;> [split; skip])] <;>
      simp_all [Memory.read, Ne.symm hc, eq_comm]

/-- A read after a write to the same address gives the value written. -/
theorem Memory.read_write_same {m : Memory} (a : Nat) (v : Byte) (h : m.wf = true) :
    (m.write a v).read a = v := by
  induction m with
  | nil => by_cases hv : v = Config.unlistedByte <;> simp [Memory.write, Memory.read, hv]
  | cons e m ih =>
    obtain ⟨b, w⟩ := e
    simp only [Memory.wf, Bool.and_eq_true, decide_eq_true_eq] at h
    obtain ⟨⟨hw, hb⟩, hm⟩ := h
    simp only [Memory.write]
    split
    · next hab =>
      split
      · next hv => rw [Memory.read, if_neg (by omega), Memory.read_of_above hb (by omega), hv]
      · simp [Memory.read]
    · next hab =>
      split
      · next hEq =>
        subst hEq
        split
        · next hv => rw [Memory.read_of_above hb (Nat.le_refl _), hv]
        · simp [Memory.read]
      · next hEq => rw [Memory.read, if_neg (fun h => hEq h.symm), ih hm]

@[simp] theorem State.memRead_memWrite_same (s : State) (a : Addr) (v : Byte) (h : s.memory.wf = true) :
    (s.memWrite a v).memRead a = v := Memory.read_write_same _ _ h

theorem State.memRead_memWrite_ne (s : State) {a b : Addr} (v : Byte) (h : b ≠ a) :
    (s.memWrite a v).memRead b = s.memRead b :=
  Memory.read_write_ne v (fun e => h (BitVec.eq_of_toNat_eq e))

theorem State.memWrite_wf (s : State) (a : Addr) (v : Byte) (h : s.memory.wf = true) :
    (s.memWrite a v).memory.wf = true := Memory.write_wf _ _ h

theorem State.memWrite_below (s : State) (a : Addr) (v : Byte) (h : s.memory.below 65536 = true) :
    (s.memWrite a v).memory.below 65536 = true := Memory.write_below v h a.isLt

end Sys2Proof.Machine
end

