-- ==== Sys2Proof/Laws/Stack.lean ====
section
/-! SUPPORT. What the stack primitives, the trap operations and `commit` can do, each said once. -/

namespace Sys2Proof.Machine

/-- A committed rule always answers a next state: the rule's, or the entry state with the fault recorded. -/
theorem commit_cases {s t : State} {r : Except Fault State} (h : commit s r = .next t) :
    r = .ok t ∨ ∃ f, r = .error f ∧ t = s.raise f := by
  cases r with
  | ok u => exact .inl (by simpa [commit] using h)
  | error f => exact .inr ⟨f, rfl, by simpa [commit] using h.symm⟩

theorem commit_ne_fault (s : State) (r : Except Fault State) (f : Fault) : commit s r ≠ .fault f := by
  cases r <;> simp [commit]

theorem commit_ne_refused (s : State) (r : Except Fault State) (f : Refusal) : commit s r ≠ .refused f := by
  cases r <;> simp [commit]

theorem State.push_full {s : State} (v : Byte) (h : s.S = 255) : s.push v = .error .stackOverflow := by
  simp [State.push, h]

theorem State.push_ok {s : State} (v : Byte) (h : s.S ≠ 255) :
    s.push v = .ok { s with S := s.S + 1, stack := s.stack.write (s.S + 1).toNat v } := by
  rw [State.push, if_neg h]

/-- Everything a push can do (R27). -/
theorem State.push_cases (s : State) (v : Byte) :
    (s.S = 255 ∧ s.push v = .error .stackOverflow) ∨
    (s.S.toNat < 255 ∧ (s.S + 1).toNat = s.S.toNat + 1 ∧
      s.push v = .ok { s with S := s.S + 1, stack := s.stack.write (s.S + 1).toNat v }) := by
  by_cases h : s.S = 255
  · exact .inl ⟨h, State.push_full v h⟩
  · have hlt : s.S.toNat < 255 := by
      have hne : s.S.toNat ≠ 255 := fun e => h (BitVec.eq_of_toNat_eq (by simpa using e))
      have := s.S.isLt; omega
    refine .inr ⟨hlt, ?_, State.push_ok v h⟩
    rw [BitVec.toNat_add]; simp; omega

/-- Everything a pop can do (R27). -/
theorem State.pop_cases (s : State) :
    (s.S = 0 ∧ s.pop = .error .stackUnderflow) ∨
    (0 < s.S.toNat ∧ (s.S - 1).toNat = s.S.toNat - 1 ∧
      s.pop = .ok (s.stackRead s.S, { s with S := s.S - 1 })) := by
  by_cases h : s.S = 0
  · exact .inl ⟨h, by simp [State.pop, h]⟩
  · have hlt : 0 < s.S.toNat := by
      have hne : s.S.toNat ≠ 0 := fun e => h (BitVec.eq_of_toNat_eq (by simpa using e))
      omega
    refine .inr ⟨hlt, ?_, by rw [State.pop, if_neg h]⟩
    have := s.S.isLt
    rw [BitVec.toNat_sub]; simp; omega

/-- Everything a two-byte push can do: it needs `S` at most 253 (R102). -/
theorem State.pushWord_cases (s : State) (w : Addr) :
    (253 < s.S.toNat ∧ s.pushWord w = .error .stackOverflow) ∨
    (s.S.toNat ≤ 253 ∧ (s.S + 1).toNat = s.S.toNat + 1 ∧ (s.S + 1 + 1).toNat = s.S.toNat + 2 ∧
      s.pushWord w = .ok { s with
        S := s.S + 1 + 1
        stack := (s.stack.write (s.S + 1).toNat (hi w)).write (s.S + 1 + 1).toNat (lo w) }) := by
  rcases State.push_cases s (hi w) with ⟨h, e⟩ | ⟨h, h1, e⟩
  · refine .inl ⟨by simp [h], by rw [State.pushWord, e]; rfl⟩
  · have hb : s.pushWord w = State.push { s with S := s.S + 1, stack := s.stack.write (s.S + 1).toNat (hi w) } (lo w) := by
      rw [State.pushWord, e]; rfl
    rcases State.push_cases { s with S := s.S + 1, stack := s.stack.write (s.S + 1).toNat (hi w) } (lo w) with
      ⟨g, e2⟩ | ⟨g, g1, e2⟩
    · refine .inl ⟨?_, by rw [hb, e2]⟩
      have : (s.S + 1).toNat = 255 := by simpa using congrArg BitVec.toNat g
      omega
    · refine .inr ⟨by simp only at g; omega, h1, ?_, by rw [hb, e2]⟩
      simp only at g1; omega

/-- Everything a two-byte pop can do: it needs `S` at least 2 (R103). -/
theorem State.popWord_cases (s : State) :
    (s.S.toNat < 2 ∧ s.popWord = .error .stackUnderflow) ∨
    (2 ≤ s.S.toNat ∧ (s.S - 1).toNat = s.S.toNat - 1 ∧ (s.S - 1 - 1).toNat = s.S.toNat - 2 ∧
      s.popWord = .ok (wordOf (s.stackRead (s.S - 1)) (s.stackRead s.S), { s with S := s.S - 1 - 1 })) := by
  rcases State.pop_cases s with ⟨h, e⟩ | ⟨h, h1, e⟩
  · refine .inl ⟨by simp [h], by rw [State.popWord, e]; rfl⟩
  · rcases State.pop_cases { s with S := s.S - 1 } with ⟨g, e2⟩ | ⟨g, g1, e2⟩
    · refine .inl ⟨?_, by rw [State.popWord, e]; simp only [Except.bind, e2]⟩
      have : (s.S - 1).toNat = 0 := by simpa using congrArg BitVec.toNat g
      omega
    · refine .inr ⟨by simp only at g; omega, h1, ?_, by rw [State.popWord, e]; simp only [Except.bind, e2]; rfl⟩
      simp only at g1; omega

/-- Everything the trap entry can do: it needs `S` at most 252 (R104). -/
theorem State.enterTrap_cases (s : State) (cost : Nat) :
    (252 < s.S.toNat ∧ s.enterTrap cost = .error .stackOverflow) ∨
    (s.S.toNat ≤ 252 ∧ (s.S + 1).toNat = s.S.toNat + 1 ∧ (s.S + 1 + 1).toNat = s.S.toNat + 2 ∧
      (s.S + 1 + 1 + 1).toNat = s.S.toNat + 3 ∧
      s.enterTrap cost = .ok { s with
        S := s.S + 1 + 1 + 1
        stack := ((s.stack.write (s.S + 1).toNat (hi (s.pc + 2))).write (s.S + 1 + 1).toNat
          (lo (s.pc + 2))).write (s.S + 1 + 1 + 1).toNat (s.P ||| maskB)
        P := assign s.P .I true
        pc := s.brkVector
        cycle := s.cycle + cost }) := by
  rcases State.pushWord_cases s (s.pc + 2) with ⟨h, e⟩ | ⟨h, h1, h2, e⟩
  · exact .inl ⟨by omega, by rw [State.enterTrap, e]; rfl⟩
  · rcases State.push_cases { s with
        S := s.S + 1 + 1
        stack := (s.stack.write (s.S + 1).toNat (hi (s.pc + 2))).write (s.S + 1 + 1).toNat (lo (s.pc + 2)) }
        (s.P ||| maskB) with ⟨g, e2⟩ | ⟨g, g1, e2⟩
    · refine .inl ⟨?_, by rw [State.enterTrap, e]; simp only [Except.bind, e2]⟩
      have : (s.S + 1 + 1).toNat = 255 := by simpa using congrArg BitVec.toNat g
      omega
    · refine .inr ⟨by simp only at g; omega, h1, h2, by simp only at g1; omega, ?_⟩
      rw [State.enterTrap, e]
      simp only [Except.bind, e2]
      rfl

/-- Everything the trap return can do: it needs `S` at least 3 (R105). -/
theorem State.leaveTrap_cases (s : State) (cost : Nat) :
    (s.S.toNat < 3 ∧ s.leaveTrap cost = .error .stackUnderflow) ∨
    (3 ≤ s.S.toNat ∧ (s.S - 1).toNat = s.S.toNat - 1 ∧ (s.S - 1 - 1).toNat = s.S.toNat - 2 ∧
      (s.S - 1 - 1 - 1).toNat = s.S.toNat - 3 ∧
      s.leaveTrap cost = .ok { s with
        S := s.S - 1 - 1 - 1
        P := s.stackRead s.S ||| mask1
        pc := wordOf (s.stackRead (s.S - 1 - 1)) (s.stackRead (s.S - 1))
        cycle := s.cycle + cost }) := by
  rcases State.pop_cases s with ⟨h, e⟩ | ⟨h, h1, e⟩
  · exact .inl ⟨by simp [h], by rw [State.leaveTrap, e]; rfl⟩
  · rcases State.popWord_cases { s with S := s.S - 1 } with ⟨g, e2⟩ | ⟨g, g1, g2, e2⟩
    · refine .inl ⟨by simp only at g; omega, by rw [State.leaveTrap, e]; simp only [Except.bind, e2]⟩
    · refine .inr ⟨by simp only at g; omega, h1, by simp only at g1; omega, by simp only at g2; omega, ?_⟩
      rw [State.leaveTrap, e]
      simp only [Except.bind, e2]
      rfl

/-- Reading a slot other than the one written. -/
theorem State.stack_read_write_ne (m : Memory) {i j : Byte} (v : Byte) (h : i ≠ j) :
    (m.write j.toNat v).read i.toNat = m.read i.toNat :=
  Memory.read_write_ne v (fun e => h (BitVec.eq_of_toNat_eq e))

end Sys2Proof.Machine
end

