-- ==== Sys2Proof/Laws/Shapes.lean ====
section
/-! SUPPORT. What each shape of an instruction answers, and that every instruction has one of the shapes: the case
analysis over `exec` that facts about every instruction start from. -/

namespace Sys2Proof.Machine

@[simp] theorem readInstr_eq (e : State → Byte → State) (o : Operand) (c : Nat) (x : Extra) (s : State) :
    readInstr e o c x s =
      .next ((e s (o.value s)).advance o.length (c + pageCrossCycle x (o.crossed s))) := rfl

@[simp] theorem storeInstr_eq (v : Byte) (m : MemOperand) (c : Nat) (s : State) :
    storeInstr v m c s = .next ((s.memWrite (m.ea s) v).advance m.mode.length c) := rfl

@[simp] theorem modifyInstr_eq (f : Byte → Byte → Byte × Byte) (pl : Place) (c : Nat) (s : State) :
    modifyInstr f pl c s =
      .next (((pl.writeback s (f (pl.value s) s.P).1).setP (f (pl.value s) s.P).2).advance pl.length c) := rfl

@[simp] theorem impliedInstr_eq (e : State → State) (c : Nat) (s : State) :
    impliedInstr e c s = .next ((e s).advance 1 c) := rfl

/-- A branch changes `pc` and `cycle` only (R91). -/
theorem branchInstr_next (cond : Bool) (d : Byte) (s : State) :
    ∃ pc cycle, branchInstr cond d s = .next { s with pc := pc, cycle := cycle } := by
  cases cond
  · exact ⟨_, _, rfl⟩
  · exact ⟨_, _, rfl⟩

/-- The rules of the instructions that read an operand. -/
inductive ReadEffect : (State → Byte → State) → Prop
  | adc : ReadEffect State.adc
  | sbc : ReadEffect State.sbc
  | and : ReadEffect State.andA
  | ora : ReadEffect State.orA
  | eor : ReadEffect State.eorA
  | bit : ReadEffect State.bitTest
  | cmp : ReadEffect State.compareA
  | cpx : ReadEffect State.compareX
  | cpy : ReadEffect State.compareY
  | lda : ReadEffect State.loadA
  | ldx : ReadEffect State.loadX
  | ldy : ReadEffect State.loadY

/-- The rules of the read-modify-write instructions. -/
inductive ModifyEffect : (Byte → Byte → Byte × Byte) → Prop
  | asl : ModifyEffect aslByte
  | lsr : ModifyEffect lsrByte
  | rol : ModifyEffect rolByte
  | ror : ModifyEffect rorByte
  | dec : ModifyEffect decByte
  | inc : ModifyEffect incByte

/-- The rules of the Implied instructions that leave the stack buffer alone. -/
inductive ImpliedEffect : (State → State) → Prop
  | loadA (v : State → Byte) : ImpliedEffect (fun t => t.loadA (v t))
  | loadX (v : State → Byte) : ImpliedEffect (fun t => t.loadX (v t))
  | loadY (v : State → Byte) : ImpliedEffect (fun t => t.loadY (v t))
  | txs : ImpliedEffect (fun t => { t with S := t.X })
  | flag (f : Flag) (b : Bool) : ImpliedEffect (fun t => t.setP (assign t.P f b))
  | nop : ImpliedEffect (fun t => t)

/-- The shapes of what `exec` answers. -/
inductive ExecShape (s : State) : Host.Outcome State Fault Refusal → Prop
  | read {e} (h : ReadEffect e) (o : Operand) (c : Nat) (x : Extra) : ExecShape s (readInstr e o c x s)
  | store (v : Byte) (m : MemOperand) (c : Nat) : ExecShape s (storeInstr v m c s)
  | modify {f} (h : ModifyEffect f) (pl : Place) (c : Nat) : ExecShape s (modifyInstr f pl c s)
  | implied {e} (h : ImpliedEffect e) (c : Nat) : ExecShape s (impliedInstr e c s)
  | branch (cond : Bool) (d : Byte) : ExecShape s (branchInstr cond d s)
  | jump (w : Addr) (c : Nat) : ExecShape s (.next (s.goto w c))
  | jsr (w : Addr) : ExecShape s (execJsr w s)
  | rts : ExecShape s (execRts s)
  | brk : ExecShape s (execBrk s)
  | rti : ExecShape s (execRti s)
  | pha : ExecShape s (execPha s)
  | pla : ExecShape s (execPla s)
  | php : ExecShape s (execPhp s)
  | plp : ExecShape s (execPlp s)

/-- Every instruction has one of the shapes. -/
theorem exec_shape (i : Instr) (s : State) : ExecShape s (exec i s) :=
  match i with
  | .adcImm _ => .read .adc _ _ _
  | .adcZp _ => .read .adc _ _ _
  | .adcZpX _ => .read .adc _ _ _
  | .adcAbs _ => .read .adc _ _ _
  | .adcAbsX _ => .read .adc _ _ _
  | .adcAbsY _ => .read .adc _ _ _
  | .adcIndX _ => .read .adc _ _ _
  | .adcIndY _ => .read .adc _ _ _
  | .sbcImm _ => .read .sbc _ _ _
  | .sbcZp _ => .read .sbc _ _ _
  | .sbcZpX _ => .read .sbc _ _ _
  | .sbcAbs _ => .read .sbc _ _ _
  | .sbcAbsX _ => .read .sbc _ _ _
  | .sbcAbsY _ => .read .sbc _ _ _
  | .sbcIndX _ => .read .sbc _ _ _
  | .sbcIndY _ => .read .sbc _ _ _
  | .andImm _ => .read .and _ _ _
  | .andZp _ => .read .and _ _ _
  | .andZpX _ => .read .and _ _ _
  | .andAbs _ => .read .and _ _ _
  | .andAbsX _ => .read .and _ _ _
  | .andAbsY _ => .read .and _ _ _
  | .andIndX _ => .read .and _ _ _
  | .andIndY _ => .read .and _ _ _
  | .oraImm _ => .read .ora _ _ _
  | .oraZp _ => .read .ora _ _ _
  | .oraZpX _ => .read .ora _ _ _
  | .oraAbs _ => .read .ora _ _ _
  | .oraAbsX _ => .read .ora _ _ _
  | .oraAbsY _ => .read .ora _ _ _
  | .oraIndX _ => .read .ora _ _ _
  | .oraIndY _ => .read .ora _ _ _
  | .eorImm _ => .read .eor _ _ _
  | .eorZp _ => .read .eor _ _ _
  | .eorZpX _ => .read .eor _ _ _
  | .eorAbs _ => .read .eor _ _ _
  | .eorAbsX _ => .read .eor _ _ _
  | .eorAbsY _ => .read .eor _ _ _
  | .eorIndX _ => .read .eor _ _ _
  | .eorIndY _ => .read .eor _ _ _
  | .bitZp _ => .read .bit _ _ _
  | .bitAbs _ => .read .bit _ _ _
  | .aslAcc => .modify .asl _ _
  | .aslZp _ => .modify .asl _ _
  | .aslZpX _ => .modify .asl _ _
  | .aslAbs _ => .modify .asl _ _
  | .aslAbsX _ => .modify .asl _ _
  | .lsrAcc => .modify .lsr _ _
  | .lsrZp _ => .modify .lsr _ _
  | .lsrZpX _ => .modify .lsr _ _
  | .lsrAbs _ => .modify .lsr _ _
  | .lsrAbsX _ => .modify .lsr _ _
  | .rolAcc => .modify .rol _ _
  | .rolZp _ => .modify .rol _ _
  | .rolZpX _ => .modify .rol _ _
  | .rolAbs _ => .modify .rol _ _
  | .rolAbsX _ => .modify .rol _ _
  | .rorAcc => .modify .ror _ _
  | .rorZp _ => .modify .ror _ _
  | .rorZpX _ => .modify .ror _ _
  | .rorAbs _ => .modify .ror _ _
  | .rorAbsX _ => .modify .ror _ _
  | .cmpImm _ => .read .cmp _ _ _
  | .cmpZp _ => .read .cmp _ _ _
  | .cmpZpX _ => .read .cmp _ _ _
  | .cmpAbs _ => .read .cmp _ _ _
  | .cmpAbsX _ => .read .cmp _ _ _
  | .cmpAbsY _ => .read .cmp _ _ _
  | .cmpIndX _ => .read .cmp _ _ _
  | .cmpIndY _ => .read .cmp _ _ _
  | .cpxImm _ => .read .cpx _ _ _
  | .cpxZp _ => .read .cpx _ _ _
  | .cpxAbs _ => .read .cpx _ _ _
  | .cpyImm _ => .read .cpy _ _ _
  | .cpyZp _ => .read .cpy _ _ _
  | .cpyAbs _ => .read .cpy _ _ _
  | .decZp _ => .modify .dec _ _
  | .decZpX _ => .modify .dec _ _
  | .decAbs _ => .modify .dec _ _
  | .decAbsX _ => .modify .dec _ _
  | .incZp _ => .modify .inc _ _
  | .incZpX _ => .modify .inc _ _
  | .incAbs _ => .modify .inc _ _
  | .incAbsX _ => .modify .inc _ _
  | .dex => .implied (.loadX (fun t => t.X - 1)) 2
  | .dey => .implied (.loadY (fun t => t.Y - 1)) 2
  | .inx => .implied (.loadX (fun t => t.X + 1)) 2
  | .iny => .implied (.loadY (fun t => t.Y + 1)) 2
  | .bcc _ => .branch _ _
  | .bcs _ => .branch _ _
  | .beq _ => .branch _ _
  | .bne _ => .branch _ _
  | .bmi _ => .branch _ _
  | .bpl _ => .branch _ _
  | .bvc _ => .branch _ _
  | .bvs _ => .branch _ _
  | .jmpAbs _ => .jump _ _
  | .jmpInd _ => .jump _ _
  | .jsr w => .jsr w
  | .rts => .rts
  | .brk => .brk
  | .rti => .rti
  | .pha => .pha
  | .pla => .pla
  | .php => .php
  | .plp => .plp
  | .tax => .implied (.loadX State.A) 2
  | .tay => .implied (.loadY State.A) 2
  | .txa => .implied (.loadA State.X) 2
  | .tya => .implied (.loadA State.Y) 2
  | .tsx => .implied (.loadX State.S) 2
  | .txs => .implied .txs 2
  | .clc => .implied (.flag .C false) 2
  | .sec => .implied (.flag .C true) 2
  | .cli => .implied (.flag .I false) 2
  | .sei => .implied (.flag .I true) 2
  | .clv => .implied (.flag .V false) 2
  | .cld => .implied (.flag .D false) 2
  | .sed => .implied (.flag .D true) 2
  | .nop => .implied .nop 2
  | .ldaImm _ => .read .lda _ _ _
  | .ldaZp _ => .read .lda _ _ _
  | .ldaZpX _ => .read .lda _ _ _
  | .ldaAbs _ => .read .lda _ _ _
  | .ldaAbsX _ => .read .lda _ _ _
  | .ldaAbsY _ => .read .lda _ _ _
  | .ldaIndX _ => .read .lda _ _ _
  | .ldaIndY _ => .read .lda _ _ _
  | .ldxImm _ => .read .ldx _ _ _
  | .ldxZp _ => .read .ldx _ _ _
  | .ldxZpY _ => .read .ldx _ _ _
  | .ldxAbs _ => .read .ldx _ _ _
  | .ldxAbsY _ => .read .ldx _ _ _
  | .ldyImm _ => .read .ldy _ _ _
  | .ldyZp _ => .read .ldy _ _ _
  | .ldyZpX _ => .read .ldy _ _ _
  | .ldyAbs _ => .read .ldy _ _ _
  | .ldyAbsX _ => .read .ldy _ _ _
  | .staZp _ => .store _ _ _
  | .staZpX _ => .store _ _ _
  | .staAbs _ => .store _ _ _
  | .staAbsX _ => .store _ _ _
  | .staAbsY _ => .store _ _ _
  | .staIndX _ => .store _ _ _
  | .staIndY _ => .store _ _ _
  | .stxZp _ => .store _ _ _
  | .stxZpY _ => .store _ _ _
  | .stxAbs _ => .store _ _ _
  | .styZp _ => .store _ _ _
  | .styZpX _ => .store _ _ _
  | .styAbs _ => .store _ _ _
  | .nopIllegal _ cyc => .implied .nop cyc

end Sys2Proof.Machine
end

