-- ==== Sys2Proof/Laws/Outcomes.lean ====
section
/-! SUPPORT. What the stack instructions can answer,
  and what a step can have done: the case analyses later proofs cite
instead of unfolding `exec` and `stepWith`. -/

namespace Sys2Proof.Machine

theorem commit_next (s : State) (r) : ∃ t, commit s r = .next t := by cases r <;> exact ⟨_, rfl⟩

theorem shape_next {s : State} {o} (h : ExecShape s o) : ∃ t, o = .next t := by
  cases h with
  | branch c d => obtain ⟨a, b, h⟩ := branchInstr_next c d s; exact ⟨_, h⟩
  | read => exact ⟨_, rfl⟩
  | store => exact ⟨_, rfl⟩
  | modify => exact ⟨_, rfl⟩
  | implied => exact ⟨_, rfl⟩
  | jump => exact ⟨_, rfl⟩
  | _ => exact commit_next _ _

/-- Every instruction answers a next state (R130, R134). -/
theorem exec_next (i : Instr) (s : State) : ∃ t, exec i s = .next t := shape_next (exec_shape i s)

/-- Everything JSR can do (R102). -/
theorem execJsr_cases {w : Addr} {s t : State} (h : execJsr w s = .next t) :
  (253 < s.S.toNat ∧ t = s.raise .stackOverflow) ∨ (s.S.toNat ≤ 253 ∧ (s.S + 1).toNat = s.S.toNat + 1 ∧
   (s.S + 1 + 1).toNat = s.S.toNat + 2 ∧
   t = { s with
        S := s.S + 1 + 1
        stack := (s.stack.write (s.S + 1).toNat (hi (s.pc + 2))).write (s.S + 1 + 1).toNat (lo (s.pc + 2))
        pc := w
        cycle := s.cycle + 6 }) := by
  rcases State.pushWord_cases s (s.pc + 2) with ⟨h1, e⟩ | ⟨h1, h2, h3, e⟩ <;> rw [execJsr, e] at h <;> cases h
  · exact .inl ⟨h1, rfl⟩
  · exact .inr ⟨h1, h2, h3, rfl⟩

/-- Everything RTS can do (R103). -/
theorem execRts_cases {s t : State} (h : execRts s = .next t) :
  (s.S.toNat < 2 ∧ t = s.raise .stackUnderflow) ∨ (2 ≤ s.S.toNat ∧ (s.S - 1).toNat = s.S.toNat - 1 ∧
   (s.S - 1 - 1).toNat = s.S.toNat - 2 ∧
   t = { s with
        S := s.S - 1 - 1
        pc := wordOf (s.stackRead (s.S - 1)) (s.stackRead s.S) + 1
        cycle := s.cycle + 6 }) := by
  rcases State.popWord_cases s with ⟨h1, e⟩ | ⟨h1, h2, h3, e⟩ <;> rw [execRts, e] at h <;> cases h
  · exact .inl ⟨h1, rfl⟩
  · exact .inr ⟨h1, h2, h3, rfl⟩

/-- Everything BRK can do (R104). -/
theorem execBrk_cases {s t : State} (h : execBrk s = .next t) :
  (252 < s.S.toNat ∧ t = s.raise .stackOverflow) ∨ (s.S.toNat ≤ 252 ∧ (s.S + 1).toNat = s.S.toNat + 1 ∧
   (s.S + 1 + 1).toNat = s.S.toNat + 2 ∧
      (s.S + 1 + 1 + 1).toNat = s.S.toNat + 3 ∧ t = { s with
        S := s.S + 1 + 1 + 1
        stack := ((s.stack.write (s.S + 1).toNat (hi (s.pc + 2))).write (s.S + 1 + 1).toNat
          (lo (s.pc + 2))).write (s.S + 1 + 1 + 1).toNat (s.P ||| maskB)
        P := assign s.P .I true
        pc := s.brkVector
        cycle := s.cycle + 7 }) := by
  rcases State.enterTrap_cases s 7 with ⟨h1, e⟩ | ⟨h1, h2, h3, h4, e⟩ <;> rw [execBrk, e] at h <;> cases h
  · exact .inl ⟨h1, rfl⟩
  · exact .inr ⟨h1, h2, h3, h4, rfl⟩

/-- Everything RTI can do (R105). -/
theorem execRti_cases {s t : State} (h : execRti s = .next t) :
  (s.S.toNat < 3 ∧ t = s.raise .stackUnderflow) ∨ (3 ≤ s.S.toNat ∧ (s.S - 1).toNat = s.S.toNat - 1 ∧
   (s.S - 1 - 1).toNat = s.S.toNat - 2 ∧
      (s.S - 1 - 1 - 1).toNat = s.S.toNat - 3 ∧ t = { s with
        S := s.S - 1 - 1 - 1
        P := s.stackRead s.S ||| mask1
        pc := wordOf (s.stackRead (s.S - 1 - 1)) (s.stackRead (s.S - 1))
        cycle := s.cycle + 6 }) := by
  rcases State.leaveTrap_cases s 6 with ⟨h1, e⟩ | ⟨h1, h2, h3, h4, e⟩ <;> rw [execRti, e] at h <;> cases h
  · exact .inl ⟨h1, rfl⟩
  · exact .inr ⟨h1, h2, h3, h4, rfl⟩

/-- Everything PHA and PHP can do (R106, R108). -/
theorem execPush_cases {v : Byte} {s t : State}
    (h : commit s ((s.push v).bind (fun t => .ok (t.advance (Mode.length .implied) 3))) = .next t) :
  (s.S.toNat = 255 ∧ t = s.raise .stackOverflow) ∨ (s.S.toNat < 255 ∧ (s.S + 1).toNat = s.S.toNat + 1 ∧
    t = { s with
        S := s.S + 1
        stack := s.stack.write (s.S + 1).toNat v
        pc := s.pc + 1
        cycle := s.cycle + 3 }) := by
  rcases State.push_cases s v with ⟨h1, e⟩ | ⟨h1, h2, e⟩ <;> rw [e] at h <;> cases h
  · exact .inl ⟨by rw [h1]; rfl, rfl⟩
  · exact .inr ⟨h1, h2, rfl⟩

/-- Everything PLA can do (R107). -/
theorem execPla_cases {s t : State} (h : execPla s = .next t) :
  (s.S.toNat = 0 ∧ t = s.raise .stackUnderflow) ∨ (0 < s.S.toNat ∧ (s.S - 1).toNat = s.S.toNat - 1 ∧
    t = { s with
        S := s.S - 1
        A := s.stackRead s.S
        P := setZN s.P (s.stackRead s.S)
        pc := s.pc + 1
        cycle := s.cycle + 4 }) := by
  rcases State.pop_cases s with ⟨h1, e⟩ | ⟨h1, h2, e⟩ <;> rw [execPla, e] at h <;> cases h
  · exact .inl ⟨by rw [h1]; rfl, rfl⟩
  · exact .inr ⟨h1, h2, rfl⟩

/-- Everything PLP can do (R109). -/
theorem execPlp_cases {s t : State} (h : execPlp s = .next t) :
  (s.S.toNat = 0 ∧ t = s.raise .stackUnderflow) ∨ (0 < s.S.toNat ∧ (s.S - 1).toNat = s.S.toNat - 1 ∧
    t = { s with
        S := s.S - 1
        P := s.stackRead s.S ||| mask1
        pc := s.pc + 1
        cycle := s.cycle + 4 }) := by
  rcases State.pop_cases s with ⟨h1, e⟩ | ⟨h1, h2, e⟩ <;> rw [execPlp, e] at h <;> cases h
  · exact .inl ⟨by rw [h1]; rfl, rfl⟩
  · exact .inr ⟨h1, h2, rfl⟩

/-- Everything a step that answers a next state can have done (R130). -/
theorem stepWith_cases {cfg : Config} {s t : State} (h : stepWith cfg s = .next t) : s.run = .fetch ∧
   ((∃ i, fetchInstr cfg s = some i ∧ exec i s = .next t) ∨ (fetchInstr cfg s = none ∧
    t = s.raise (.unimplementedOpcode (s.memRead s.pc) s.pc))) := by
  rw [stepWith] at h
  cases hr : s.run with
  | halted f => rw [hr] at h; cases h
  | fetch =>
    rw [hr] at h
    cases hf : fetchInstr cfg s with
    | some i => rw [hf] at h; exact ⟨rfl, .inl ⟨i, rfl, h⟩⟩
    | none => rw [hf] at h; cases h; exact ⟨rfl, .inr ⟨rfl, rfl⟩⟩

theorem stepWith_next {cfg : Config} {s : State} (hr : s.run = .fetch) : ∃ t, stepWith cfg s = .next t := by
  rw [stepWith, hr]
  cases hf : fetchInstr cfg s with
  | some i => exact exec_next i s
  | none => exact ⟨_, rfl⟩

/-- Everything a step can return (R139). -/
theorem stepReturn_cases {cfg : Config} {s t : State} {r} (h : stepReturn cfg s = some (t, r)) :
   (∃ f, s.run = .halted f ∧ t = s ∧ r = .err f) ∨ (s.run = .fetch ∧ stepWith cfg s = .next t ∧ ((t.run = .fetch ∧
    r = .ok (t.cycle - s.cycle)) ∨ ∃ f, t.run = .halted f ∧ r = .err f)) := by
  cases hr : s.run with
  | halted f =>
    have e : stepWith cfg s = .fault f := by rw [stepWith, hr]
    rw [stepReturn, e] at h; cases h; exact .inl ⟨_, rfl, rfl, rfl⟩
  | fetch =>
    obtain ⟨u, e⟩ := stepWith_next (cfg := cfg) hr
    rw [stepReturn, e] at h
    cases hu : u.run with
    | fetch => simp only [hu] at h; cases h; exact .inr ⟨rfl, e, .inl ⟨hu, rfl⟩⟩
    | halted f => simp only [hu] at h; cases h; exact .inr ⟨rfl, e, .inr ⟨_, hu, rfl⟩⟩

end Sys2Proof.Machine
end

