-- ==== Sys2Proof/Laws/Loop.lean ====
section
/-! SUPPORT. The state after a step, and the equations of the derived runs of `49_dispatch_loop.md` R140. -/

namespace Sys2Proof.Machine

@[simp] theorem runN_zero (cfg : Config) (s : State) : runN cfg 0 s = s := rfl
@[simp] theorem runN_succ (cfg : Config) (n : Nat) (s : State) :
    runN cfg (n + 1) s = runN cfg n (stepState cfg s) := rfl

theorem stepState_of_next {cfg : Config} {s t : State} (h : stepWith cfg s = .next t) : stepState cfg s = t := by
  rw [stepState, h]

theorem stepState_of_halted {cfg : Config} {s : State} {f : Fault} (h : s.run = .halted f) : stepState cfg s = s := by
  simp [stepState, stepWith, h]

theorem runUntilHaltWithin_halted {cfg : Config} {s : State} {f : Fault} (fuel : Nat) (h : s.run = .halted f) :
    runUntilHaltWithin cfg fuel s = some s := by
  cases fuel <;> simp [runUntilHaltWithin, h]

theorem runUntilHaltWithin_fetch_zero {cfg : Config} {s : State} (h : s.run = .fetch) :
    runUntilHaltWithin cfg 0 s = none := by
  simp [runUntilHaltWithin, h]

theorem runUntilHaltWithin_fetch_succ {cfg : Config} {s : State} (fuel : Nat) (h : s.run = .fetch) :
    runUntilHaltWithin cfg (fuel + 1) s = runUntilHaltWithin cfg fuel (stepState cfg s) := by
  simp [runUntilHaltWithin, h]

/-- More fuel gives the same answer. -/
theorem runUntilHaltWithin_mono {cfg : Config} {s t : State} {m n : Nat} (hmn : m ≤ n)
    (h : runUntilHaltWithin cfg m s = some t) : runUntilHaltWithin cfg n s = some t := by
  induction m generalizing n s with
  | zero =>
    cases hr : s.run with
    | halted f => rwa [runUntilHaltWithin_halted _ hr] at h ⊢
    | fetch => simp [runUntilHaltWithin_fetch_zero hr] at h
  | succ m ih =>
    cases hr : s.run with
    | halted f => rwa [runUntilHaltWithin_halted _ hr] at h ⊢
    | fetch =>
      obtain ⟨k, rfl⟩ : ∃ k, n = k + 1 := ⟨n - 1, by omega⟩
      rw [runUntilHaltWithin_fetch_succ _ hr] at h ⊢
      exact ih (by omega) h

end Sys2Proof.Machine
end

