-- ==== Sys2Proof/Laws/PerInstr.lean ====
section
/-! SUPPORT. The family `TableRow`: the encoding of every instruction that is well formed under the default
configuration begins with the opcode byte of a row of the dispatch table, and has that row's length (R33, R34). -/

namespace Sys2Proof.Laws.TableRow

/-- The instruction's first byte has a row, and the row's length is the length of the encoding. -/
def Statement (i : Instr) : Prop :=
  i.wf Config.default = true →
    ∃ row, lookup ((encode i).headD 0) = some row ∧ row.mode.length = (encode i).length

theorem adcImm (v : Byte) : Statement (.adcImm v) := fun _ => ⟨_, rfl, rfl⟩
theorem adcZp (b : Byte) : Statement (.adcZp b) := fun _ => ⟨_, rfl, rfl⟩
theorem adcZpX (b : Byte) : Statement (.adcZpX b) := fun _ => ⟨_, rfl, rfl⟩
theorem adcAbs (w : Addr) : Statement (.adcAbs w) := fun _ => ⟨_, rfl, rfl⟩
theorem adcAbsX (w : Addr) : Statement (.adcAbsX w) := fun _ => ⟨_, rfl, rfl⟩
theorem adcAbsY (w : Addr) : Statement (.adcAbsY w) := fun _ => ⟨_, rfl, rfl⟩
theorem adcIndX (b : Byte) : Statement (.adcIndX b) := fun _ => ⟨_, rfl, rfl⟩
theorem adcIndY (b : Byte) : Statement (.adcIndY b) := fun _ => ⟨_, rfl, rfl⟩
theorem sbcImm (v : Byte) : Statement (.sbcImm v) := fun _ => ⟨_, rfl, rfl⟩
theorem sbcZp (b : Byte) : Statement (.sbcZp b) := fun _ => ⟨_, rfl, rfl⟩
theorem sbcZpX (b : Byte) : Statement (.sbcZpX b) := fun _ => ⟨_, rfl, rfl⟩
theorem sbcAbs (w : Addr) : Statement (.sbcAbs w) := fun _ => ⟨_, rfl, rfl⟩
theorem sbcAbsX (w : Addr) : Statement (.sbcAbsX w) := fun _ => ⟨_, rfl, rfl⟩
theorem sbcAbsY (w : Addr) : Statement (.sbcAbsY w) := fun _ => ⟨_, rfl, rfl⟩
theorem sbcIndX (b : Byte) : Statement (.sbcIndX b) := fun _ => ⟨_, rfl, rfl⟩
theorem sbcIndY (b : Byte) : Statement (.sbcIndY b) := fun _ => ⟨_, rfl, rfl⟩
theorem andImm (v : Byte) : Statement (.andImm v) := fun _ => ⟨_, rfl, rfl⟩
theorem andZp (b : Byte) : Statement (.andZp b) := fun _ => ⟨_, rfl, rfl⟩
theorem andZpX (b : Byte) : Statement (.andZpX b) := fun _ => ⟨_, rfl, rfl⟩
theorem andAbs (w : Addr) : Statement (.andAbs w) := fun _ => ⟨_, rfl, rfl⟩
theorem andAbsX (w : Addr) : Statement (.andAbsX w) := fun _ => ⟨_, rfl, rfl⟩
theorem andAbsY (w : Addr) : Statement (.andAbsY w) := fun _ => ⟨_, rfl, rfl⟩
theorem andIndX (b : Byte) : Statement (.andIndX b) := fun _ => ⟨_, rfl, rfl⟩
theorem andIndY (b : Byte) : Statement (.andIndY b) := fun _ => ⟨_, rfl, rfl⟩
theorem oraImm (v : Byte) : Statement (.oraImm v) := fun _ => ⟨_, rfl, rfl⟩
theorem oraZp (b : Byte) : Statement (.oraZp b) := fun _ => ⟨_, rfl, rfl⟩
theorem oraZpX (b : Byte) : Statement (.oraZpX b) := fun _ => ⟨_, rfl, rfl⟩
theorem oraAbs (w : Addr) : Statement (.oraAbs w) := fun _ => ⟨_, rfl, rfl⟩
theorem oraAbsX (w : Addr) : Statement (.oraAbsX w) := fun _ => ⟨_, rfl, rfl⟩
theorem oraAbsY (w : Addr) : Statement (.oraAbsY w) := fun _ => ⟨_, rfl, rfl⟩
theorem oraIndX (b : Byte) : Statement (.oraIndX b) := fun _ => ⟨_, rfl, rfl⟩
theorem oraIndY (b : Byte) : Statement (.oraIndY b) := fun _ => ⟨_, rfl, rfl⟩
theorem eorImm (v : Byte) : Statement (.eorImm v) := fun _ => ⟨_, rfl, rfl⟩
theorem eorZp (b : Byte) : Statement (.eorZp b) := fun _ => ⟨_, rfl, rfl⟩
theorem eorZpX (b : Byte) : Statement (.eorZpX b) := fun _ => ⟨_, rfl, rfl⟩
theorem eorAbs (w : Addr) : Statement (.eorAbs w) := fun _ => ⟨_, rfl, rfl⟩
theorem eorAbsX (w : Addr) : Statement (.eorAbsX w) := fun _ => ⟨_, rfl, rfl⟩
theorem eorAbsY (w : Addr) : Statement (.eorAbsY w) := fun _ => ⟨_, rfl, rfl⟩
theorem eorIndX (b : Byte) : Statement (.eorIndX b) := fun _ => ⟨_, rfl, rfl⟩
theorem eorIndY (b : Byte) : Statement (.eorIndY b) := fun _ => ⟨_, rfl, rfl⟩
theorem bitZp (b : Byte) : Statement (.bitZp b) := fun _ => ⟨_, rfl, rfl⟩
theorem bitAbs (w : Addr) : Statement (.bitAbs w) := fun _ => ⟨_, rfl, rfl⟩
theorem aslAcc : Statement .aslAcc := fun _ => ⟨_, rfl, rfl⟩
theorem aslZp (b : Byte) : Statement (.aslZp b) := fun _ => ⟨_, rfl, rfl⟩
theorem aslZpX (b : Byte) : Statement (.aslZpX b) := fun _ => ⟨_, rfl, rfl⟩
theorem aslAbs (w : Addr) : Statement (.aslAbs w) := fun _ => ⟨_, rfl, rfl⟩
theorem aslAbsX (w : Addr) : Statement (.aslAbsX w) := fun _ => ⟨_, rfl, rfl⟩
theorem lsrAcc : Statement .lsrAcc := fun _ => ⟨_, rfl, rfl⟩
theorem lsrZp (b : Byte) : Statement (.lsrZp b) := fun _ => ⟨_, rfl, rfl⟩
theorem lsrZpX (b : Byte) : Statement (.lsrZpX b) := fun _ => ⟨_, rfl, rfl⟩
theorem lsrAbs (w : Addr) : Statement (.lsrAbs w) := fun _ => ⟨_, rfl, rfl⟩
theorem lsrAbsX (w : Addr) : Statement (.lsrAbsX w) := fun _ => ⟨_, rfl, rfl⟩
theorem rolAcc : Statement .rolAcc := fun _ => ⟨_, rfl, rfl⟩
theorem rolZp (b : Byte) : Statement (.rolZp b) := fun _ => ⟨_, rfl, rfl⟩
theorem rolZpX (b : Byte) : Statement (.rolZpX b) := fun _ => ⟨_, rfl, rfl⟩
theorem rolAbs (w : Addr) : Statement (.rolAbs w) := fun _ => ⟨_, rfl, rfl⟩
theorem rolAbsX (w : Addr) : Statement (.rolAbsX w) := fun _ => ⟨_, rfl, rfl⟩
theorem rorAcc : Statement .rorAcc := fun _ => ⟨_, rfl, rfl⟩
theorem rorZp (b : Byte) : Statement (.rorZp b) := fun _ => ⟨_, rfl, rfl⟩
theorem rorZpX (b : Byte) : Statement (.rorZpX b) := fun _ => ⟨_, rfl, rfl⟩
theorem rorAbs (w : Addr) : Statement (.rorAbs w) := fun _ => ⟨_, rfl, rfl⟩
theorem rorAbsX (w : Addr) : Statement (.rorAbsX w) := fun _ => ⟨_, rfl, rfl⟩
theorem cmpImm (v : Byte) : Statement (.cmpImm v) := fun _ => ⟨_, rfl, rfl⟩
theorem cmpZp (b : Byte) : Statement (.cmpZp b) := fun _ => ⟨_, rfl, rfl⟩
theorem cmpZpX (b : Byte) : Statement (.cmpZpX b) := fun _ => ⟨_, rfl, rfl⟩
theorem cmpAbs (w : Addr) : Statement (.cmpAbs w) := fun _ => ⟨_, rfl, rfl⟩
theorem cmpAbsX (w : Addr) : Statement (.cmpAbsX w) := fun _ => ⟨_, rfl, rfl⟩
theorem cmpAbsY (w : Addr) : Statement (.cmpAbsY w) := fun _ => ⟨_, rfl, rfl⟩
theorem cmpIndX (b : Byte) : Statement (.cmpIndX b) := fun _ => ⟨_, rfl, rfl⟩
theorem cmpIndY (b : Byte) : Statement (.cmpIndY b) := fun _ => ⟨_, rfl, rfl⟩
theorem cpxImm (v : Byte) : Statement (.cpxImm v) := fun _ => ⟨_, rfl, rfl⟩
theorem cpxZp (b : Byte) : Statement (.cpxZp b) := fun _ => ⟨_, rfl, rfl⟩
theorem cpxAbs (w : Addr) : Statement (.cpxAbs w) := fun _ => ⟨_, rfl, rfl⟩
theorem cpyImm (v : Byte) : Statement (.cpyImm v) := fun _ => ⟨_, rfl, rfl⟩
theorem cpyZp (b : Byte) : Statement (.cpyZp b) := fun _ => ⟨_, rfl, rfl⟩
theorem cpyAbs (w : Addr) : Statement (.cpyAbs w) := fun _ => ⟨_, rfl, rfl⟩
theorem decZp (b : Byte) : Statement (.decZp b) := fun _ => ⟨_, rfl, rfl⟩
theorem decZpX (b : Byte) : Statement (.decZpX b) := fun _ => ⟨_, rfl, rfl⟩
theorem decAbs (w : Addr) : Statement (.decAbs w) := fun _ => ⟨_, rfl, rfl⟩
theorem decAbsX (w : Addr) : Statement (.decAbsX w) := fun _ => ⟨_, rfl, rfl⟩
theorem incZp (b : Byte) : Statement (.incZp b) := fun _ => ⟨_, rfl, rfl⟩
theorem incZpX (b : Byte) : Statement (.incZpX b) := fun _ => ⟨_, rfl, rfl⟩
theorem incAbs (w : Addr) : Statement (.incAbs w) := fun _ => ⟨_, rfl, rfl⟩
theorem incAbsX (w : Addr) : Statement (.incAbsX w) := fun _ => ⟨_, rfl, rfl⟩
theorem dex : Statement .dex := fun _ => ⟨_, rfl, rfl⟩
theorem dey : Statement .dey := fun _ => ⟨_, rfl, rfl⟩
theorem inx : Statement .inx := fun _ => ⟨_, rfl, rfl⟩
theorem iny : Statement .iny := fun _ => ⟨_, rfl, rfl⟩
theorem bcc (d : Byte) : Statement (.bcc d) := fun _ => ⟨_, rfl, rfl⟩
theorem bcs (d : Byte) : Statement (.bcs d) := fun _ => ⟨_, rfl, rfl⟩
theorem beq (d : Byte) : Statement (.beq d) := fun _ => ⟨_, rfl, rfl⟩
theorem bne (d : Byte) : Statement (.bne d) := fun _ => ⟨_, rfl, rfl⟩
theorem bmi (d : Byte) : Statement (.bmi d) := fun _ => ⟨_, rfl, rfl⟩
theorem bpl (d : Byte) : Statement (.bpl d) := fun _ => ⟨_, rfl, rfl⟩
theorem bvc (d : Byte) : Statement (.bvc d) := fun _ => ⟨_, rfl, rfl⟩
theorem bvs (d : Byte) : Statement (.bvs d) := fun _ => ⟨_, rfl, rfl⟩
theorem jmpAbs (w : Addr) : Statement (.jmpAbs w) := fun _ => ⟨_, rfl, rfl⟩
theorem jmpInd (w : Addr) : Statement (.jmpInd w) := fun _ => ⟨_, rfl, rfl⟩
theorem jsr (w : Addr) : Statement (.jsr w) := fun _ => ⟨_, rfl, rfl⟩
theorem rts : Statement .rts := fun _ => ⟨_, rfl, rfl⟩
theorem brk : Statement .brk := fun _ => ⟨_, rfl, rfl⟩
theorem rti : Statement .rti := fun _ => ⟨_, rfl, rfl⟩
theorem pha : Statement .pha := fun _ => ⟨_, rfl, rfl⟩
theorem pla : Statement .pla := fun _ => ⟨_, rfl, rfl⟩
theorem php : Statement .php := fun _ => ⟨_, rfl, rfl⟩
theorem plp : Statement .plp := fun _ => ⟨_, rfl, rfl⟩
theorem tax : Statement .tax := fun _ => ⟨_, rfl, rfl⟩
theorem tay : Statement .tay := fun _ => ⟨_, rfl, rfl⟩
theorem txa : Statement .txa := fun _ => ⟨_, rfl, rfl⟩
theorem tya : Statement .tya := fun _ => ⟨_, rfl, rfl⟩
theorem tsx : Statement .tsx := fun _ => ⟨_, rfl, rfl⟩
theorem txs : Statement .txs := fun _ => ⟨_, rfl, rfl⟩
theorem clc : Statement .clc := fun _ => ⟨_, rfl, rfl⟩
theorem sec : Statement .sec := fun _ => ⟨_, rfl, rfl⟩
theorem cli : Statement .cli := fun _ => ⟨_, rfl, rfl⟩
theorem sei : Statement .sei := fun _ => ⟨_, rfl, rfl⟩
theorem clv : Statement .clv := fun _ => ⟨_, rfl, rfl⟩
theorem cld : Statement .cld := fun _ => ⟨_, rfl, rfl⟩
theorem sed : Statement .sed := fun _ => ⟨_, rfl, rfl⟩
theorem nop : Statement .nop := fun _ => ⟨_, rfl, rfl⟩
theorem ldaImm (v : Byte) : Statement (.ldaImm v) := fun _ => ⟨_, rfl, rfl⟩
theorem ldaZp (b : Byte) : Statement (.ldaZp b) := fun _ => ⟨_, rfl, rfl⟩
theorem ldaZpX (b : Byte) : Statement (.ldaZpX b) := fun _ => ⟨_, rfl, rfl⟩
theorem ldaAbs (w : Addr) : Statement (.ldaAbs w) := fun _ => ⟨_, rfl, rfl⟩
theorem ldaAbsX (w : Addr) : Statement (.ldaAbsX w) := fun _ => ⟨_, rfl, rfl⟩
theorem ldaAbsY (w : Addr) : Statement (.ldaAbsY w) := fun _ => ⟨_, rfl, rfl⟩
theorem ldaIndX (b : Byte) : Statement (.ldaIndX b) := fun _ => ⟨_, rfl, rfl⟩
theorem ldaIndY (b : Byte) : Statement (.ldaIndY b) := fun _ => ⟨_, rfl, rfl⟩
theorem ldxImm (v : Byte) : Statement (.ldxImm v) := fun _ => ⟨_, rfl, rfl⟩
theorem ldxZp (b : Byte) : Statement (.ldxZp b) := fun _ => ⟨_, rfl, rfl⟩
theorem ldxZpY (b : Byte) : Statement (.ldxZpY b) := fun _ => ⟨_, rfl, rfl⟩
theorem ldxAbs (w : Addr) : Statement (.ldxAbs w) := fun _ => ⟨_, rfl, rfl⟩
theorem ldxAbsY (w : Addr) : Statement (.ldxAbsY w) := fun _ => ⟨_, rfl, rfl⟩
theorem ldyImm (v : Byte) : Statement (.ldyImm v) := fun _ => ⟨_, rfl, rfl⟩
theorem ldyZp (b : Byte) : Statement (.ldyZp b) := fun _ => ⟨_, rfl, rfl⟩
theorem ldyZpX (b : Byte) : Statement (.ldyZpX b) := fun _ => ⟨_, rfl, rfl⟩
theorem ldyAbs (w : Addr) : Statement (.ldyAbs w) := fun _ => ⟨_, rfl, rfl⟩
theorem ldyAbsX (w : Addr) : Statement (.ldyAbsX w) := fun _ => ⟨_, rfl, rfl⟩
theorem staZp (b : Byte) : Statement (.staZp b) := fun _ => ⟨_, rfl, rfl⟩
theorem staZpX (b : Byte) : Statement (.staZpX b) := fun _ => ⟨_, rfl, rfl⟩
theorem staAbs (w : Addr) : Statement (.staAbs w) := fun _ => ⟨_, rfl, rfl⟩
theorem staAbsX (w : Addr) : Statement (.staAbsX w) := fun _ => ⟨_, rfl, rfl⟩
theorem staAbsY (w : Addr) : Statement (.staAbsY w) := fun _ => ⟨_, rfl, rfl⟩
theorem staIndX (b : Byte) : Statement (.staIndX b) := fun _ => ⟨_, rfl, rfl⟩
theorem staIndY (b : Byte) : Statement (.staIndY b) := fun _ => ⟨_, rfl, rfl⟩
theorem stxZp (b : Byte) : Statement (.stxZp b) := fun _ => ⟨_, rfl, rfl⟩
theorem stxZpY (b : Byte) : Statement (.stxZpY b) := fun _ => ⟨_, rfl, rfl⟩
theorem stxAbs (w : Addr) : Statement (.stxAbs w) := fun _ => ⟨_, rfl, rfl⟩
theorem styZp (b : Byte) : Statement (.styZp b) := fun _ => ⟨_, rfl, rfl⟩
theorem styZpX (b : Byte) : Statement (.styZpX b) := fun _ => ⟨_, rfl, rfl⟩
theorem styAbs (w : Addr) : Statement (.styAbs w) := fun _ => ⟨_, rfl, rfl⟩
theorem nopIllegal (op : Byte) (cyc : Nat) : Statement (.nopIllegal op cyc) := by
  intro h
  simp [Instr.wf, Config.default] at h

end Sys2Proof.Laws.TableRow
end

