-- ==== Sys2Proof/Tests/Slice0.lean ====
section
/-! SUPPORT. The model's own tests. A name ending in a letter and a number is that vector of `95_test_vectors.md`; the words of the
decode tests are written out from the dispatch table of `30_encoding.md` R36; a `witness_` theorem shows
values that meet the hypotheses of the obligation it is named after. -/

namespace Sys2Proof.Tests

open Sys2Proof.Machine Sys2Proof.Claims

/-! ### Helpers -/

/-- A memory from (address, byte) pairs in any order. -/
def bytes (l : List (Nat × Byte)) : Memory := l.foldl (fun m e => m.write e.1 e.2) []

/-- The state after reset with `code` at `a`, other bytes of memory, and `pc` at `a`. -/
def prog (a : Nat) (code : List Byte) (mem : List (Nat × Byte)) : State :=
  State.construct (BitVec.ofNat 16 a)
    (bytes (mem ++ (code.zipIdx).map (fun e => ((a + e.2) % 65536, e.1)))) []

/-- One step answers a next state with the property. -/
def goes (s : State) (p : State → Bool) : Bool :=
  match step s with
  | .next t => p t
  | .fault _ => false
  | .refused _ => false

/-- One step halts the machine with the fault and changes nothing else. -/
def halts (s : State) (f : Fault) : Bool := goes s (fun t => t == s.raise f)

/-! ### Well-formedness: each check refuses an ill-formed term -/

theorem test_wf_default : Config.default.wf = true := by decide
theorem test_wf_config : Config.wf ⟨[(0x1A, 1), (0x80, 2)]⟩ = true := by decide
theorem test_wf_refuses_defined_byte : Config.wf ⟨[(0xEA, 2)]⟩ = false := by decide
theorem test_wf_refuses_byte_twice : Config.wf ⟨[(0x1A, 1), (0x1A, 2)]⟩ = false := by decide
theorem test_wf_refuses_cost_zero : Config.wf ⟨[(0x1A, 0)]⟩ = false := by decide
theorem test_wf_nop_listed : Instr.wf ⟨[(0x1A, 1)]⟩ (.nopIllegal 0x1A 1) = true := by decide
theorem test_wf_refuses_unlisted_nop : Instr.wf Config.default (.nopIllegal 0x1A 1) = false := by decide
theorem test_wf_refuses_other_cost : Instr.wf ⟨[(0x1A, 1)]⟩ (.nopIllegal 0x1A 2) = false := by decide

/-! ### Decoding -/

/-- Every byte of the list of R37 is refused (R143). -/
theorem test_decode_refuses_undefined_bytes :
    undefinedOpcodes.all (fun op => decodeTableWord 8 op.toNat == none) = true := by decide +kernel
theorem test_decode_refusals_have_names :
    decode Config.default [0x02, 0xEA, 0xEA] = .error (.unimplementedOpcode 0x02) ∧
    decode Config.default [0xA9] = .error (.missingOperand 0xA9) ∧
    decode Config.default [0xAD, 0x34] = .error (.missingOperand 0xAD) ∧
    decode Config.default [] = .error .noBytes := ⟨rfl, rfl, rfl, rfl⟩
theorem test_decode_illegal_nop :
    decode ⟨[(0x1A, 1)]⟩ [0x1A, 0x55] = .ok (.nopIllegal 0x1A 1, [0x55]) := rfl
/-- The table wins over an ill-formed configuration (log 12). -/
theorem test_decode_table_first : decode ⟨[(0xEA, 9)]⟩ [0xEA] = .ok (.nop, []) := rfl
theorem test_decode_arithmetic_1 :
    decodeTableWord 16 0b1001110001101001 = some (.adcImm 0x9C) ∧
    decodeTableWord 16 0xAD65 = some (.adcZp 0xAD) ∧
    decodeTableWord 16 0xBE75 = some (.adcZpX 0xBE) ∧
    decodeTableWord 24 0xE4506D = some (.adcAbs 0xE450) ∧
    decodeTableWord 24 0xF7517D = some (.adcAbsX 0xF751) ∧
    decodeTableWord 24 0x0A5279 = some (.adcAbsY 0x0A52) ∧
    decodeTableWord 16 0x0261 = some (.adcIndX 0x02) ∧
    decodeTableWord 16 0x1371 = some (.adcIndY 0x13) ∧
    decodeTableWord 16 0x24E9 = some (.sbcImm 0x24) ∧
    decodeTableWord 16 0b0011010111100101 = some (.sbcZp 0x35) := by decide
theorem test_decode_arithmetic_2 :
    decodeTableWord 16 0x46F5 = some (.sbcZpX 0x46) ∧
    decodeTableWord 24 0x7C58ED = some (.sbcAbs 0x7C58) ∧
    decodeTableWord 24 0x8F59FD = some (.sbcAbsX 0x8F59) ∧
    decodeTableWord 24 0xA25AF9 = some (.sbcAbsY 0xA25A) ∧
    decodeTableWord 16 0x8AE1 = some (.sbcIndX 0x8A) ∧
    decodeTableWord 16 0x9BF1 = some (.sbcIndY 0x9B) := by decide
theorem test_decode_and_ora_1 :
    decodeTableWord 16 0b1001110000101001 = some (.andImm 0x9C) ∧
    decodeTableWord 16 0xAD25 = some (.andZp 0xAD) ∧
    decodeTableWord 16 0xBE35 = some (.andZpX 0xBE) ∧
    decodeTableWord 24 0xE4502D = some (.andAbs 0xE450) ∧
    decodeTableWord 24 0xF7513D = some (.andAbsX 0xF751) ∧
    decodeTableWord 24 0x0A5239 = some (.andAbsY 0x0A52) ∧
    decodeTableWord 16 0x0221 = some (.andIndX 0x02) ∧
    decodeTableWord 16 0x1331 = some (.andIndY 0x13) ∧
    decodeTableWord 16 0x2409 = some (.oraImm 0x24) ∧
    decodeTableWord 16 0b0011010100000101 = some (.oraZp 0x35) := by decide
theorem test_decode_and_ora_2 :
    decodeTableWord 16 0x4615 = some (.oraZpX 0x46) ∧
    decodeTableWord 24 0x7C580D = some (.oraAbs 0x7C58) ∧
    decodeTableWord 24 0x8F591D = some (.oraAbsX 0x8F59) ∧
    decodeTableWord 24 0xA25A19 = some (.oraAbsY 0xA25A) ∧
    decodeTableWord 16 0x8A01 = some (.oraIndX 0x8A) ∧
    decodeTableWord 16 0x9B11 = some (.oraIndY 0x9B) := by decide
theorem test_decode_eor_bit :
    decodeTableWord 16 0b1001110001001001 = some (.eorImm 0x9C) ∧
    decodeTableWord 16 0xAD45 = some (.eorZp 0xAD) ∧
    decodeTableWord 16 0xBE55 = some (.eorZpX 0xBE) ∧
    decodeTableWord 24 0xE4504D = some (.eorAbs 0xE450) ∧
    decodeTableWord 24 0xF7515D = some (.eorAbsX 0xF751) ∧
    decodeTableWord 24 0x0A5259 = some (.eorAbsY 0x0A52) ∧
    decodeTableWord 16 0x0241 = some (.eorIndX 0x02) ∧
    decodeTableWord 16 0x1351 = some (.eorIndY 0x13) ∧
    decodeTableWord 16 0x2424 = some (.bitZp 0x24) ∧
    decodeTableWord 24 0b010101100101011000101100 = some (.bitAbs 0x5656) := by decide
theorem test_decode_shift :
    decodeTableWord 8 0b00001010 = some .aslAcc ∧
    decodeTableWord 16 0xAD06 = some (.aslZp 0xAD) ∧
    decodeTableWord 16 0xBE16 = some (.aslZpX 0xBE) ∧
    decodeTableWord 24 0xE4500E = some (.aslAbs 0xE450) ∧
    decodeTableWord 24 0xF7511E = some (.aslAbsX 0xF751) ∧
    decodeTableWord 8 0x4A = some .lsrAcc ∧
    decodeTableWord 16 0x0246 = some (.lsrZp 0x02) ∧
    decodeTableWord 16 0x1356 = some (.lsrZpX 0x13) ∧
    decodeTableWord 24 0x43554E = some (.lsrAbs 0x4355) ∧
    decodeTableWord 24 0b010101100101011001011110 = some (.lsrAbsX 0x5656) := by decide
theorem test_decode_rotate :
    decodeTableWord 8 0b00101010 = some .rolAcc ∧
    decodeTableWord 16 0xAD26 = some (.rolZp 0xAD) ∧
    decodeTableWord 16 0xBE36 = some (.rolZpX 0xBE) ∧
    decodeTableWord 24 0xE4502E = some (.rolAbs 0xE450) ∧
    decodeTableWord 24 0xF7513E = some (.rolAbsX 0xF751) ∧
    decodeTableWord 8 0x6A = some .rorAcc ∧
    decodeTableWord 16 0x0266 = some (.rorZp 0x02) ∧
    decodeTableWord 16 0x1376 = some (.rorZpX 0x13) ∧
    decodeTableWord 24 0x43556E = some (.rorAbs 0x4355) ∧
    decodeTableWord 24 0b010101100101011001111110 = some (.rorAbsX 0x5656) := by decide
theorem test_decode_compare_1 :
    decodeTableWord 16 0b1001110011001001 = some (.cmpImm 0x9C) ∧
    decodeTableWord 16 0xADC5 = some (.cmpZp 0xAD) ∧
    decodeTableWord 16 0xBED5 = some (.cmpZpX 0xBE) ∧
    decodeTableWord 24 0xE450CD = some (.cmpAbs 0xE450) ∧
    decodeTableWord 24 0xF751DD = some (.cmpAbsX 0xF751) ∧
    decodeTableWord 24 0x0A52D9 = some (.cmpAbsY 0x0A52) ∧
    decodeTableWord 16 0x02C1 = some (.cmpIndX 0x02) ∧
    decodeTableWord 16 0x13D1 = some (.cmpIndY 0x13) ∧
    decodeTableWord 16 0x24E0 = some (.cpxImm 0x24) ∧
    decodeTableWord 16 0b0011010111100100 = some (.cpxZp 0x35) := by decide
theorem test_decode_compare_2 :
    decodeTableWord 24 0x6957EC = some (.cpxAbs 0x6957) ∧
    decodeTableWord 16 0x57C0 = some (.cpyImm 0x57) ∧
    decodeTableWord 16 0x68C4 = some (.cpyZp 0x68) ∧
    decodeTableWord 24 0xA25ACC = some (.cpyAbs 0xA25A) := by decide
theorem test_decode_incdec_1 :
    decodeTableWord 16 0b1001110011000110 = some (.decZp 0x9C) ∧
    decodeTableWord 16 0xADD6 = some (.decZpX 0xAD) ∧
    decodeTableWord 24 0xD14FCE = some (.decAbs 0xD14F) ∧
    decodeTableWord 24 0xE450DE = some (.decAbsX 0xE450) ∧
    decodeTableWord 16 0xE0E6 = some (.incZp 0xE0) ∧
    decodeTableWord 16 0xF1F6 = some (.incZpX 0xF1) ∧
    decodeTableWord 24 0x1D53EE = some (.incAbs 0x1D53) ∧
    decodeTableWord 24 0x3054FE = some (.incAbsX 0x3054) ∧
    decodeTableWord 8 0xCA = some .dex ∧
    decodeTableWord 8 0b10001000 = some .dey := by decide
theorem test_decode_incdec_2 :
    decodeTableWord 8 0xE8 = some .inx ∧
    decodeTableWord 8 0xC8 = some .iny := by decide
theorem test_decode_control_1 :
    decodeTableWord 16 0b1001110010010000 = some (.bcc 0x9C) ∧
    decodeTableWord 16 0xADB0 = some (.bcs 0xAD) ∧
    decodeTableWord 16 0xBEF0 = some (.beq 0xBE) ∧
    decodeTableWord 16 0xCFD0 = some (.bne 0xCF) ∧
    decodeTableWord 16 0xE030 = some (.bmi 0xE0) ∧
    decodeTableWord 16 0xF110 = some (.bpl 0xF1) ∧
    decodeTableWord 16 0x0250 = some (.bvc 0x02) ∧
    decodeTableWord 16 0x1370 = some (.bvs 0x13) ∧
    decodeTableWord 24 0x43554C = some (.jmpAbs 0x4355) ∧
    decodeTableWord 24 0b010101100101011001101100 = some (.jmpInd 0x5656) := by decide
theorem test_decode_control_2 :
    decodeTableWord 24 0x695720 = some (.jsr 0x6957) ∧
    decodeTableWord 8 0x60 = some .rts ∧
    decodeTableWord 8 0x00 = some .brk ∧
    decodeTableWord 8 0x40 = some .rti := by decide
theorem test_decode_stack_transfer :
    decodeTableWord 8 0b01001000 = some .pha ∧
    decodeTableWord 8 0x68 = some .pla ∧
    decodeTableWord 8 0x08 = some .php ∧
    decodeTableWord 8 0x28 = some .plp ∧
    decodeTableWord 8 0xAA = some .tax ∧
    decodeTableWord 8 0xA8 = some .tay ∧
    decodeTableWord 8 0x8A = some .txa ∧
    decodeTableWord 8 0x98 = some .tya ∧
    decodeTableWord 8 0xBA = some .tsx ∧
    decodeTableWord 8 0b10011010 = some .txs := by decide
theorem test_decode_flag_nop :
    decodeTableWord 8 0b00011000 = some .clc ∧
    decodeTableWord 8 0x38 = some .sec ∧
    decodeTableWord 8 0x58 = some .cli ∧
    decodeTableWord 8 0x78 = some .sei ∧
    decodeTableWord 8 0xB8 = some .clv ∧
    decodeTableWord 8 0xD8 = some .cld ∧
    decodeTableWord 8 0xF8 = some .sed ∧
    decodeTableWord 8 0xEA = some .nop := by decide
theorem test_decode_load_1 :
    decodeTableWord 16 0b1001110010101001 = some (.ldaImm 0x9C) ∧
    decodeTableWord 16 0xADA5 = some (.ldaZp 0xAD) ∧
    decodeTableWord 16 0xBEB5 = some (.ldaZpX 0xBE) ∧
    decodeTableWord 24 0xE450AD = some (.ldaAbs 0xE450) ∧
    decodeTableWord 24 0xF751BD = some (.ldaAbsX 0xF751) ∧
    decodeTableWord 24 0x0A52B9 = some (.ldaAbsY 0x0A52) ∧
    decodeTableWord 16 0x02A1 = some (.ldaIndX 0x02) ∧
    decodeTableWord 16 0x13B1 = some (.ldaIndY 0x13) ∧
    decodeTableWord 16 0x24A2 = some (.ldxImm 0x24) ∧
    decodeTableWord 16 0b0011010110100110 = some (.ldxZp 0x35) := by decide
theorem test_decode_load_2 :
    decodeTableWord 16 0x46B6 = some (.ldxZpY 0x46) ∧
    decodeTableWord 24 0x7C58AE = some (.ldxAbs 0x7C58) ∧
    decodeTableWord 24 0x8F59BE = some (.ldxAbsY 0x8F59) ∧
    decodeTableWord 16 0x79A0 = some (.ldyImm 0x79) ∧
    decodeTableWord 16 0x8AA4 = some (.ldyZp 0x8A) ∧
    decodeTableWord 16 0x9BB4 = some (.ldyZpX 0x9B) ∧
    decodeTableWord 24 0xDB5DAC = some (.ldyAbs 0xDB5D) ∧
    decodeTableWord 24 0xEE5EBC = some (.ldyAbsX 0xEE5E) := by decide
theorem test_decode_store_1 :
    decodeTableWord 16 0b1001110010000101 = some (.staZp 0x9C) ∧
    decodeTableWord 16 0xAD95 = some (.staZpX 0xAD) ∧
    decodeTableWord 24 0xD14F8D = some (.staAbs 0xD14F) ∧
    decodeTableWord 24 0xE4509D = some (.staAbsX 0xE450) ∧
    decodeTableWord 24 0xF75199 = some (.staAbsY 0xF751) ∧
    decodeTableWord 16 0xF181 = some (.staIndX 0xF1) ∧
    decodeTableWord 16 0x0291 = some (.staIndY 0x02) ∧
    decodeTableWord 16 0x1386 = some (.stxZp 0x13) ∧
    decodeTableWord 16 0x2496 = some (.stxZpY 0x24) ∧
    decodeTableWord 24 0b010101100101011010001110 = some (.stxAbs 0x5656) := by decide
theorem test_decode_store_2 :
    decodeTableWord 16 0x4684 = some (.styZp 0x46) ∧
    decodeTableWord 16 0x5794 = some (.styZpX 0x57) ∧
    decodeTableWord 24 0x8F598C = some (.styAbs 0x8F59) := by decide

/-! ### One step, one instruction -/

theorem test_adcImm_A12 :
    goes { prog 0x0200 [0x69, 0x90] [] with A := 0xD0 }
    (fun t => t.A == 0x60 && t.P == 0x65 && t.pc == 0x0202 && t.cycle == 2) = true := by decide
theorem test_adcImm_A17 :
    goes { prog 0x0200 [0x69, 0x01] [] with A := 0x09, P := 0x2C }
    (fun t => t.A == 0x0A && t.P == 0x2C && t.pc == 0x0202 && t.cycle == 2) = true := by decide
theorem test_sbcImm_B6 :
    goes { prog 0x0200 [0xE9, 0x01] [] with A := 0x80, P := 0x25 }
    (fun t => t.A == 0x7F && t.P == 0x65 && t.pc == 0x0202 && t.cycle == 2) = true := by decide
theorem test_sbcImm_B14 :
    goes { prog 0x0200 [0xE9, 0x01] [] with A := 0x10, P := 0x2D }
    (fun t => t.A == 0x0F && t.P == 0x2D && t.pc == 0x0202 && t.cycle == 2) = true := by decide
theorem test_andImm_L1 :
    goes { prog 0x0200 [0x29, 0x7F] [] with A := 0x80 }
    (fun t => t.A == 0x00 && t.P == 0x26 && t.pc == 0x0202 && t.cycle == 2) = true := by decide
theorem test_oraImm_L5 :
    goes { prog 0x0200 [0x09, 0x00] [] with A := 0x00 }
    (fun t => t.A == 0x00 && t.P == 0x26 && t.pc == 0x0202 && t.cycle == 2) = true := by decide
theorem test_eorImm_L8 :
    goes { prog 0x0200 [0x49, 0xFF] [] with A := 0xFF }
    (fun t => t.A == 0x00 && t.P == 0x26 && t.pc == 0x0202 && t.cycle == 2) = true := by decide
theorem test_bitZp_T2 :
    goes { prog 0x0200 [0x24, 0x10] [(0x0010, 0xC0)] with A := 0x01 }
    (fun t => t.A == 0x01 && t.P == 0xE6 && t.pc == 0x0202 && t.cycle == 3) = true := by decide
theorem test_bitZp_T4 :
    goes { prog 0x0200 [0x24, 0x10] [(0x0010, 0x00)] with A := 0x00, P := 0x25 }
    (fun t => t.A == 0x00 && t.P == 0x27 && t.pc == 0x0202 && t.cycle == 3) = true := by decide
theorem test_bitAbs_T5 :
    goes { prog 0x0200 [0x2C, 0x00, 0x30] [(0x3000, 0x40)] with A := 0x40 }
    (fun t => t.A == 0x40 && t.P == 0x64 && t.pc == 0x0203 && t.cycle == 4) = true := by decide
theorem test_aslAcc_H5 :
    goes { prog 0x0200 [0x0A] [] with A := 0x80, P := 0x25 }
    (fun t => t.A == 0x00 && t.P == 0x27 && t.pc == 0x0201 && t.cycle == 2) = true := by decide
theorem test_aslAcc_H7 :
    goes { prog 0x0200 [0x0A] [] with A := 0x40 }
    (fun t => t.A == 0x80 && t.P == 0xA4 && t.pc == 0x0201 && t.cycle == 2) = true := by decide
theorem test_aslZp_M1 :
    goes { prog 0x0200 [0x06, 0x10] [(0x0010, 0x81)] with A := 0xEE }
    (fun t => t.A == 0xEE && t.P == 0x25 && t.pc == 0x0202 && t.cycle == 5 && t.memRead 0x0010 == 0x02) = true := by decide
theorem test_aslZpX_M2 :
    goes { prog 0x0200 [0x16, 0xF0] [(0x0010, 0x40)] with A := 0xEE, X := 0x20 }
    (fun t => t.A == 0xEE && t.P == 0xA4 && t.pc == 0x0202 && t.cycle == 6 && t.memRead 0x0010 == 0x80) = true := by decide
theorem test_aslAbs_M3 :
    goes { prog 0x0200 [0x0E, 0x00, 0x30] [(0x3000, 0x80)] with A := 0xEE }
    (fun t => t.A == 0xEE && t.P == 0x27 && t.pc == 0x0203 && t.cycle == 6 && t.memRead 0x3000 == 0x00) = true := by decide
theorem test_aslAbsX_M4 :
    goes { prog 0x0200 [0x1E, 0xFF, 0x30] [(0x3100, 0x01)] with A := 0xEE, X := 0x01 }
    (fun t => t.A == 0xEE && t.P == 0x24 && t.pc == 0x0203 && t.cycle == 7 && t.memRead 0x3100 == 0x02) = true := by decide
theorem test_lsrAcc_H10 :
    goes { prog 0x0200 [0x4A] [] with A := 0x01 }
    (fun t => t.A == 0x00 && t.P == 0x27 && t.pc == 0x0201 && t.cycle == 2) = true := by decide
theorem test_lsrAcc_H13 :
    goes { prog 0x0200 [0x4A] [] with A := 0xFF }
    (fun t => t.A == 0x7F && t.P == 0x25 && t.pc == 0x0201 && t.cycle == 2) = true := by decide
theorem test_lsrZp_M5 :
    goes { prog 0x0200 [0x46, 0x10] [(0x0010, 0x01)] with A := 0xEE }
    (fun t => t.A == 0xEE && t.P == 0x27 && t.pc == 0x0202 && t.cycle == 5 && t.memRead 0x0010 == 0x00) = true := by decide
theorem test_lsrAbsX_M6 :
    goes { prog 0x0200 [0x5E, 0x00, 0x30] [(0x3005, 0xFE)] with A := 0xEE, X := 0x05 }
    (fun t => t.A == 0xEE && t.P == 0x24 && t.pc == 0x0203 && t.cycle == 7 && t.memRead 0x3005 == 0x7F) = true := by decide
theorem test_rolAcc_H16 :
    goes { prog 0x0200 [0x2A] [] with A := 0x00, P := 0x25 }
    (fun t => t.A == 0x01 && t.P == 0x24 && t.pc == 0x0201 && t.cycle == 2) = true := by decide
theorem test_rolAcc_H20 :
    goes { prog 0x0200 [0x2A] [] with A := 0x81, P := 0x25 }
    (fun t => t.A == 0x03 && t.P == 0x25 && t.pc == 0x0201 && t.cycle == 2) = true := by decide
theorem test_rolZp_M7 :
    goes { prog 0x0200 [0x26, 0x10] [(0x0010, 0x80)] with A := 0xEE, P := 0x25 }
    (fun t => t.A == 0xEE && t.P == 0x25 && t.pc == 0x0202 && t.cycle == 5 && t.memRead 0x0010 == 0x01) = true := by decide
theorem test_rolAbsX_M8 :
    goes { prog 0x0200 [0x3E, 0xFF, 0x30] [(0x31FE, 0x7F)] with A := 0xEE, X := 0xFF, P := 0x25 }
    (fun t => t.A == 0xEE && t.P == 0xA4 && t.pc == 0x0203 && t.cycle == 7 && t.memRead 0x31FE == 0xFF) = true := by decide
theorem test_rorAcc_H25 :
    goes { prog 0x0200 [0x6A] [] with A := 0x00, P := 0x25 }
    (fun t => t.A == 0x80 && t.P == 0xA4 && t.pc == 0x0201 && t.cycle == 2) = true := by decide
theorem test_rorAcc_H29 :
    goes { prog 0x0200 [0x6A] [] with A := 0x81, P := 0x25 }
    (fun t => t.A == 0xC0 && t.P == 0xA5 && t.pc == 0x0201 && t.cycle == 2) = true := by decide
theorem test_rorZp_M9 :
    goes { prog 0x0200 [0x66, 0x10] [(0x0010, 0x01)] with A := 0xEE, P := 0x25 }
    (fun t => t.A == 0xEE && t.P == 0xA5 && t.pc == 0x0202 && t.cycle == 5 && t.memRead 0x0010 == 0x80) = true := by decide
theorem test_rorZpX_M10 :
    goes { prog 0x0200 [0x76, 0xFF] [(0x0001, 0x02)] with A := 0xEE, X := 0x02 }
    (fun t => t.A == 0xEE && t.P == 0x24 && t.pc == 0x0202 && t.cycle == 6 && t.memRead 0x0001 == 0x01) = true := by decide
theorem test_rorAbs_M11 :
    goes { prog 0x0200 [0x6E, 0x00, 0x30] [(0x3000, 0x00)] with A := 0xEE, P := 0x25 }
    (fun t => t.A == 0xEE && t.P == 0xA4 && t.pc == 0x0203 && t.cycle == 6 && t.memRead 0x3000 == 0x80) = true := by decide
theorem test_rorAbsX_M12 :
    goes { prog 0x0200 [0x7E, 0x80, 0x30] [(0x3100, 0x03)] with A := 0xEE, X := 0x80 }
    (fun t => t.A == 0xEE && t.P == 0x25 && t.pc == 0x0203 && t.cycle == 7 && t.memRead 0x3100 == 0x01) = true := by decide
theorem test_cmpImm_K2 :
    goes { prog 0x0200 [0xC9, 0x10] [] with A := 0x10, P := 0x65 }
    (fun t => t.A == 0x10 && t.P == 0x67 && t.pc == 0x0202 && t.cycle == 2) = true := by decide
theorem test_cmpImm_K7 :
    goes { prog 0x0200 [0xC9, 0x80] [] with A := 0x00 }
    (fun t => t.A == 0x00 && t.P == 0xA4 && t.pc == 0x0202 && t.cycle == 2) = true := by decide
theorem test_cpxImm_K10 :
    goes { prog 0x0200 [0xE0, 0x03] [] with X := 0x05 }
    (fun t => t.X == 0x05 && t.P == 0x25 && t.pc == 0x0202 && t.cycle == 2) = true := by decide
theorem test_cpyImm_K13 :
    goes { prog 0x0200 [0xC0, 0x05] [] with Y := 0x03 }
    (fun t => t.Y == 0x03 && t.P == 0xA4 && t.pc == 0x0202 && t.cycle == 2) = true := by decide
theorem test_decZp_J6 :
    goes { prog 0x0200 [0xC6, 0x10] [(0x0010, 0x00)] with P := 0x25 }
    (fun t => t.P == 0xA5 && t.pc == 0x0202 && t.cycle == 5 && t.memRead 0x0010 == 0xFF) = true := by decide
theorem test_decZpX_J8 :
    goes { prog 0x0200 [0xD6, 0x10] [(0x0014, 0x80)] with X := 0x04, P := 0x25 }
    (fun t => t.P == 0x25 && t.pc == 0x0202 && t.cycle == 6 && t.memRead 0x0014 == 0x7F) = true := by decide
theorem test_decAbs_J9 :
    goes { prog 0x0200 [0xCE, 0x00, 0x30] [(0x3000, 0x81)] with P := 0x25 }
    (fun t => t.P == 0xA5 && t.pc == 0x0203 && t.cycle == 6 && t.memRead 0x3000 == 0x80) = true := by decide
theorem test_decAbsX_J10 :
    goes { prog 0x0200 [0xDE, 0x00, 0x30] [(0x30FF, 0x10)] with X := 0xFF, P := 0x25 }
    (fun t => t.P == 0x25 && t.pc == 0x0203 && t.cycle == 7 && t.memRead 0x30FF == 0x0F) = true := by decide
theorem test_incZp_J1 :
    goes { prog 0x0200 [0xE6, 0x10] [(0x0010, 0xFF)] with P := 0x25 }
    (fun t => t.P == 0x27 && t.pc == 0x0202 && t.cycle == 5 && t.memRead 0x0010 == 0x00) = true := by decide
theorem test_incZpX_J3 :
    goes { prog 0x0200 [0xF6, 0x10] [(0x0005, 0x00)] with X := 0xF5, P := 0x25 }
    (fun t => t.P == 0x25 && t.pc == 0x0202 && t.cycle == 6 && t.memRead 0x0005 == 0x01) = true := by decide
theorem test_incAbs_J4 :
    goes { prog 0x0200 [0xEE, 0x00, 0x30] [(0x3000, 0xFE)] with P := 0x25 }
    (fun t => t.P == 0xA5 && t.pc == 0x0203 && t.cycle == 6 && t.memRead 0x3000 == 0xFF) = true := by decide
theorem test_incAbsX_J5 :
    goes { prog 0x0200 [0xFE, 0xFF, 0x30] [(0x3100, 0x41)] with X := 0x01, P := 0x25 }
    (fun t => t.P == 0x25 && t.pc == 0x0203 && t.cycle == 7 && t.memRead 0x3100 == 0x42) = true := by decide
theorem test_dex_I9 :
    goes { prog 0x0200 [0xCA] [] with X := 0x00, P := 0x25 }
    (fun t => t.X == 0xFF && t.P == 0xA5 && t.pc == 0x0201 && t.cycle == 2) = true := by decide
theorem test_dey_I13 :
    goes { prog 0x0200 [0x88] [] with Y := 0x00, P := 0x25 }
    (fun t => t.Y == 0xFF && t.P == 0xA5 && t.pc == 0x0201 && t.cycle == 2) = true := by decide
theorem test_inx_I1 :
    goes { prog 0x0200 [0xE8] [] with X := 0x00, P := 0x25 }
    (fun t => t.X == 0x01 && t.P == 0x25 && t.pc == 0x0201 && t.cycle == 2) = true := by decide
theorem test_iny_I5 :
    goes { prog 0x0200 [0xC8] [] with Y := 0x00, P := 0x25 }
    (fun t => t.Y == 0x01 && t.P == 0x25 && t.pc == 0x0201 && t.cycle == 2) = true := by decide
theorem test_bcc_Q1 :
    goes (prog 0x0200 [0x90, 0x10] [])
    (fun t => t.P == 0x24 && t.pc == 0x0212 && t.cycle == 3) = true := by decide
theorem test_bcs_Q3 :
    goes { prog 0x0200 [0xB0, 0x10] [] with P := 0x25 }
    (fun t => t.P == 0x25 && t.pc == 0x0212 && t.cycle == 3) = true := by decide
theorem test_beq_Q5 :
    goes { prog 0x0200 [0xF0, 0x10] [] with P := 0x26 }
    (fun t => t.P == 0x26 && t.pc == 0x0212 && t.cycle == 3) = true := by decide
theorem test_bne_O3 :
    goes (prog 0x0200 [0xD0, 0x80] [])
    (fun t => t.pc == 0x0182 && t.cycle == 4) = true := by decide
theorem test_bne_O9 :
    goes (prog 0x02FE [0xD0, 0xFC] [])
    (fun t => t.pc == 0x02FC && t.cycle == 4) = true := by decide
theorem test_bmi_Q9 :
    goes { prog 0x0200 [0x30, 0x10] [] with P := 0xA4 }
    (fun t => t.P == 0xA4 && t.pc == 0x0212 && t.cycle == 3) = true := by decide
theorem test_bpl_Q11 :
    goes (prog 0x0200 [0x10, 0x10] [])
    (fun t => t.P == 0x24 && t.pc == 0x0212 && t.cycle == 3) = true := by decide
theorem test_bvc_Q13 :
    goes (prog 0x0200 [0x50, 0x10] [])
    (fun t => t.P == 0x24 && t.pc == 0x0212 && t.cycle == 3) = true := by decide
theorem test_bvs_Q15 :
    goes { prog 0x0200 [0x70, 0x10] [] with P := 0x64 }
    (fun t => t.P == 0x64 && t.pc == 0x0212 && t.cycle == 3) = true := by decide
theorem test_jmpAbs_X1 :
    goes (prog 0x0200 [0x4C, 0x34, 0x12] [])
    (fun t => t.S == 0 && t.P == 0x24 && t.pc == 0x1234 && t.cycle == 3) = true := by decide
theorem test_jmpInd_X4 :
    goes (prog 0x0200 [0x6C, 0xFF, 0x30] [(0x30FF, 0x78), (0x3100, 0x56), (0x3000, 0x9A)])
    (fun t => t.S == 0 && t.pc == 0x9A78 && t.cycle == 5) = true := by decide
theorem test_jmpInd_X5 :
    goes (prog 0x0200 [0x6C, 0xFF, 0xFF] [(0xFFFF, 0x11), (0xFF00, 0x22), (0x0000, 0x33)])
    (fun t => t.S == 0 && t.pc == 0x2211 && t.cycle == 5) = true := by decide
theorem test_jsr_X6 :
    goes { prog 0x0200 [0x20, 0x00, 0x40] [] with S := 0 }
    (fun t => t.S == 2 && t.P == 0x24 && t.pc == 0x4000 && t.cycle == 6 && t.stackRead 1 == 0x02 && t.stackRead 2 == 0x02) = true := by decide
theorem test_jsr_W6 :
    halts { prog 0x0200 [0x20, 0x00, 0x40] [] with S := 254, stack := bytes [(255, 0xCC)] } .stackOverflow = true := by decide
theorem test_rts_X9 :
    goes { prog 0x4000 [0x60] [] with S := 2, stack := bytes [(1, 0xFF), (2, 0xFF)] }
    (fun t => t.S == 0 && t.pc == 0x0000 && t.cycle == 6) = true := by decide
theorem test_rts_W10 :
    halts { prog 0x0200 [0x60] [] with S := 1 } .stackUnderflow = true := by decide
theorem test_brk_X10 :
    goes { prog 0x0200 [0x00, 0xAB] [(0xFFFE, 0x00), (0xFFFF, 0x80)] with P := 0xE5, S := 0 }
    (fun t => t.S == 3 && t.P == 0xE5 && t.pc == 0x8000 && t.cycle == 7 && t.stackRead 1 == 0x02 && t.stackRead 2 == 0x02 && t.stackRead 3 == 0xF5) = true := by decide
theorem test_brk_W7 :
    halts { prog 0x0200 [0x00, 0x00] [] with S := 253 } .stackOverflow = true := by decide
theorem test_rti_X12 :
    goes { prog 0x8000 [0x40] [] with S := 3, stack := bytes [(1, 0x02), (2, 0x02), (3, 0xF5)] }
    (fun t => t.S == 0 && t.P == 0xF5 && t.pc == 0x0202 && t.cycle == 6) = true := by decide
theorem test_rti_W11 :
    halts { prog 0x0200 [0x40] [] with S := 2 } .stackUnderflow = true := by decide
theorem test_pha_Y2 :
    goes { prog 0x0200 [0x48] [] with A := 0x11, S := 254 }
    (fun t => t.S == 255 && t.cycle == 3 && t.stackRead 255 == 0x11) = true := by decide
theorem test_pha_W4 :
    halts { prog 0x0200 [0x48] [] with A := 0x01, S := 255 } .stackOverflow = true := by decide
theorem test_pla_Y4 :
    goes { prog 0x0200 [0x68] [] with A := 0x55, P := 0x27, S := 9, stack := bytes [(9, 0x90)] }
    (fun t => t.A == 0x90 && t.S == 8 && t.P == 0xA5 && t.cycle == 4) = true := by decide
theorem test_pla_W8 :
    halts (prog 0x0200 [0x68] []) .stackUnderflow = true := by decide
theorem test_php_Y5 :
    goes { prog 0x0200 [0x08] [] with P := 0xE5, S := 4 }
    (fun t => t.S == 5 && t.P == 0xE5 && t.cycle == 3 && t.stackRead 5 == 0xE5) = true := by decide
theorem test_php_W5 :
    halts { prog 0x0200 [0x08] [] with S := 255 } .stackOverflow = true := by decide
theorem test_plp_Y7 :
    goes { prog 0x0200 [0x28] [] with S := 1, stack := bytes [(1, 0xFF)] }
    (fun t => t.S == 0 && t.P == 0xFF && t.cycle == 4) = true := by decide
theorem test_plp_W9 :
    halts (prog 0x0200 [0x28] []) .stackUnderflow = true := by decide
theorem test_tax_Z1 :
    goes { prog 0x0200 [0xAA] [] with A := 0x00, X := 0x55 }
    (fun t => t.X == 0x00 && t.P == 0x26 && t.cycle == 2) = true := by decide
theorem test_tay_Z3 :
    goes { prog 0x0200 [0xA8] [] with A := 0x7F, Y := 0x00, P := 0xA6 }
    (fun t => t.Y == 0x7F && t.P == 0x24 && t.cycle == 2) = true := by decide
theorem test_txa_Z4 :
    goes { prog 0x0200 [0x8A] [] with A := 0x00, X := 0xFF }
    (fun t => t.A == 0xFF && t.P == 0xA4 && t.cycle == 2) = true := by decide
theorem test_tya_Z6 :
    goes { prog 0x0200 [0x98] [] with A := 0x80, Y := 0x01, P := 0xA4 }
    (fun t => t.A == 0x01 && t.P == 0x24 && t.cycle == 2) = true := by decide
theorem test_tsx_Y9 :
    goes { prog 0x0200 [0xBA] [] with X := 0x77, S := 0 }
    (fun t => t.X == 0x00 && t.P == 0x26 && t.cycle == 2) = true := by decide
theorem test_txs_Y11 :
    goes { prog 0x0200 [0x9A] [] with X := 0xFF, S := 3 }
    (fun t => t.S == 255 && t.P == 0x24 && t.cycle == 2) = true := by decide
theorem test_clc_Z7 :
    goes { prog 0x0200 [0x18] [] with P := 0x25 }
    (fun t => t.P == 0x24 && t.pc == 0x0201 && t.cycle == 2) = true := by decide
theorem test_sec_Z9 :
    goes (prog 0x0200 [0x38] [])
    (fun t => t.P == 0x25 && t.pc == 0x0201 && t.cycle == 2) = true := by decide
theorem test_cli_Z11 :
    goes (prog 0x0200 [0x58] [])
    (fun t => t.P == 0x20 && t.pc == 0x0201 && t.cycle == 2) = true := by decide
theorem test_sei_Z12 :
    goes { prog 0x0200 [0x78] [] with P := 0x20 }
    (fun t => t.P == 0x24 && t.pc == 0x0201 && t.cycle == 2) = true := by decide
theorem test_clv_Z13 :
    goes { prog 0x0200 [0xB8] [] with P := 0x64 }
    (fun t => t.P == 0x24 && t.pc == 0x0201 && t.cycle == 2) = true := by decide
theorem test_cld_Z15 :
    goes { prog 0x0200 [0xD8] [] with P := 0x2C }
    (fun t => t.P == 0x24 && t.pc == 0x0201 && t.cycle == 2) = true := by decide
theorem test_sed_Z16 :
    goes (prog 0x0200 [0xF8] [])
    (fun t => t.P == 0x2C && t.pc == 0x0201 && t.cycle == 2) = true := by decide
theorem test_nop_V3 :
    goes (prog 0xFFFF [] [(0xFFFF, 0xEA)])
    (fun t => t.pc == 0x0000 && t.cycle == 2) = true := by decide
theorem test_ldaImm_V1 :
    goes (prog 0xFFFF [] [(0xFFFF, 0xA9), (0x0000, 0x42)])
    (fun t => t.A == 0x42 && t.pc == 0x0001 && t.cycle == 2) = true := by decide
theorem test_ldaZp_E3 :
    goes (prog 0x0200 [0xA5, 0x10] [(0x0010, 0x7F)])
    (fun t => t.A == 0x7F && t.P == 0x24 && t.pc == 0x0202 && t.cycle == 3) = true := by decide
theorem test_ldaZpX_E4 :
    goes { prog 0x0200 [0xB5, 0x10] [(0x0014, 0x01)] with X := 0x04 }
    (fun t => t.A == 0x01 && t.P == 0x24 && t.pc == 0x0202 && t.cycle == 4) = true := by decide
theorem test_ldaAbs_V2 :
    goes (prog 0xFFFE [] [(0xFFFE, 0xAD), (0xFFFF, 0x10), (0x0000, 0x00), (0x0010, 0x99)])
    (fun t => t.A == 0x99 && t.pc == 0x0001 && t.cycle == 4) = true := by decide
theorem test_ldaAbsX_E9 :
    goes { prog 0x0200 [0xBD, 0xFF, 0x20] [(0x2100, 0x5A)] with X := 0x01 }
    (fun t => t.A == 0x5A && t.P == 0x24 && t.pc == 0x0203 && t.cycle == 5) = true := by decide
theorem test_ldaAbsX_E11 :
    goes { prog 0x0200 [0xBD, 0x00, 0x20] [(0x2000, 0x01)] with X := 0x00 }
    (fun t => t.A == 0x01 && t.P == 0x24 && t.pc == 0x0203 && t.cycle == 4) = true := by decide
theorem test_ldaAbsY_E12 :
    goes { prog 0x0200 [0xB9, 0x80, 0x20] [(0x20FF, 0x10)] with Y := 0x7F }
    (fun t => t.A == 0x10 && t.P == 0x24 && t.pc == 0x0203 && t.cycle == 4) = true := by decide
theorem test_ldaIndX_E15 :
    goes { prog 0x0200 [0xA1, 0xFE] [(0x00FF, 0x00), (0x0000, 0x30), (0x0100, 0x40), (0x3000, 0x0C), (0x4000, 0xEE)] with X := 0x01 }
    (fun t => t.A == 0x0C && t.P == 0x24 && t.pc == 0x0202 && t.cycle == 6) = true := by decide
theorem test_ldaIndX_E16 :
    goes { prog 0x0200 [0xA1, 0xFF] [(0x00FE, 0x10), (0x00FF, 0x20), (0x2010, 0x3C)] with X := 0xFF }
    (fun t => t.A == 0x3C && t.P == 0x24 && t.pc == 0x0202 && t.cycle == 6) = true := by decide
theorem test_ldaIndY_E19 :
    goes { prog 0x0200 [0xB1, 0xFF] [(0x00FF, 0x00), (0x0000, 0x30), (0x0100, 0x50), (0x3001, 0x2B), (0x5001, 0xEE)] with Y := 0x01 }
    (fun t => t.A == 0x2B && t.P == 0x24 && t.pc == 0x0202 && t.cycle == 5) = true := by decide
theorem test_ldaIndY_E20 :
    goes { prog 0x0200 [0xB1, 0x20] [(0x0020, 0xFF), (0x0021, 0xFF), (0x00FE, 0x6D)] with Y := 0xFF }
    (fun t => t.A == 0x6D && t.P == 0x24 && t.pc == 0x0202 && t.cycle == 6) = true := by decide
theorem test_ldxImm_E21 :
    goes (prog 0x0200 [0xA2, 0xFF] [])
    (fun t => t.X == 0xFF && t.P == 0xA4 && t.pc == 0x0202 && t.cycle == 2) = true := by decide
theorem test_ldxZp_E22 :
    goes (prog 0x0200 [0xA6, 0x10] [(0x0010, 0x00)])
    (fun t => t.X == 0x00 && t.P == 0x26 && t.pc == 0x0202 && t.cycle == 3) = true := by decide
theorem test_ldxZpY_E23 :
    goes { prog 0x0200 [0xB6, 0xF0] [(0x0010, 0x44), (0x0110, 0x11)] with Y := 0x20 }
    (fun t => t.X == 0x44 && t.P == 0x24 && t.pc == 0x0202 && t.cycle == 4) = true := by decide
theorem test_ldxAbs_E24 :
    goes (prog 0x0200 [0xAE, 0x00, 0x30] [(0x3000, 0x80)])
    (fun t => t.X == 0x80 && t.P == 0xA4 && t.pc == 0x0203 && t.cycle == 4) = true := by decide
theorem test_ldxAbsY_E25 :
    goes { prog 0x0200 [0xBE, 0xF0, 0x30] [(0x3100, 0x05)] with Y := 0x10 }
    (fun t => t.X == 0x05 && t.P == 0x24 && t.pc == 0x0203 && t.cycle == 5) = true := by decide
theorem test_ldyImm_E26 :
    goes { prog 0x0200 [0xA0, 0x00] [] with Y := 0x09 }
    (fun t => t.Y == 0x00 && t.P == 0x26 && t.pc == 0x0202 && t.cycle == 2) = true := by decide
theorem test_ldyZp_E27 :
    goes (prog 0x0200 [0xA4, 0x10] [(0x0010, 0xF0)])
    (fun t => t.Y == 0xF0 && t.P == 0xA4 && t.pc == 0x0202 && t.cycle == 3) = true := by decide
theorem test_ldyZpX_E28 :
    goes { prog 0x0200 [0xB4, 0x10] [(0x0011, 0x33)] with X := 0x01 }
    (fun t => t.Y == 0x33 && t.P == 0x24 && t.pc == 0x0202 && t.cycle == 4) = true := by decide
theorem test_ldyAbs_E29 :
    goes (prog 0x0200 [0xAC, 0x00, 0x30] [(0x3000, 0x01)])
    (fun t => t.Y == 0x01 && t.P == 0x24 && t.pc == 0x0203 && t.cycle == 4) = true := by decide
theorem test_ldyAbsX_E30 :
    goes { prog 0x0200 [0xBC, 0x01, 0x30] [(0x3100, 0x88)] with X := 0xFF }
    (fun t => t.Y == 0x88 && t.P == 0xA4 && t.pc == 0x0203 && t.cycle == 5) = true := by decide
theorem test_staZp_F1 :
    goes { prog 0x0200 [0x85, 0x10] [] with A := 0x80, P := 0x26 }
    (fun t => t.P == 0x26 && t.pc == 0x0202 && t.cycle == 3 && t.memRead 0x0010 == 0x80) = true := by decide
theorem test_staZpX_F2 :
    goes { prog 0x0200 [0x95, 0xFF] [] with A := 0x80, X := 0x02, P := 0x26 }
    (fun t => t.P == 0x26 && t.pc == 0x0202 && t.cycle == 4 && t.memRead 0x0001 == 0x80) = true := by decide
theorem test_staAbs_F3 :
    goes { prog 0x0200 [0x8D, 0x00, 0x30] [] with A := 0x80, P := 0x26 }
    (fun t => t.P == 0x26 && t.pc == 0x0203 && t.cycle == 4 && t.memRead 0x3000 == 0x80) = true := by decide
theorem test_staAbsX_F4 :
    goes { prog 0x0200 [0x9D, 0x00, 0x30] [] with A := 0x80, X := 0x01, P := 0x26 }
    (fun t => t.P == 0x26 && t.pc == 0x0203 && t.cycle == 5 && t.memRead 0x3001 == 0x80) = true := by decide
theorem test_staAbsY_F6 :
    goes { prog 0x0200 [0x99, 0xFF, 0x30] [] with A := 0x80, Y := 0xFF, P := 0x26 }
    (fun t => t.P == 0x26 && t.pc == 0x0203 && t.cycle == 5 && t.memRead 0x31FE == 0x80) = true := by decide
theorem test_staIndX_F7 :
    goes { prog 0x0200 [0x81, 0x20] [(0x0024, 0x00), (0x0025, 0x30)] with A := 0x80, X := 0x04, P := 0x26 }
    (fun t => t.P == 0x26 && t.pc == 0x0202 && t.cycle == 6 && t.memRead 0x3000 == 0x80) = true := by decide
theorem test_staIndY_F8 :
    goes { prog 0x0200 [0x91, 0x20] [(0x0020, 0xF8), (0x0021, 0x30)] with A := 0x80, Y := 0x10, P := 0x26 }
    (fun t => t.P == 0x26 && t.pc == 0x0202 && t.cycle == 6 && t.memRead 0x3108 == 0x80) = true := by decide
theorem test_stxZp_F10 :
    goes { prog 0x0200 [0x86, 0x10] [] with A := 0x80, X := 0x7E, P := 0x26 }
    (fun t => t.P == 0x26 && t.pc == 0x0202 && t.cycle == 3 && t.memRead 0x0010 == 0x7E) = true := by decide
theorem test_stxZpY_F11 :
    goes { prog 0x0200 [0x96, 0x10] [] with A := 0x80, X := 0x7E, Y := 0xF1, P := 0x26 }
    (fun t => t.P == 0x26 && t.pc == 0x0202 && t.cycle == 4 && t.memRead 0x0001 == 0x7E) = true := by decide
theorem test_stxAbs_F12 :
    goes { prog 0x0200 [0x8E, 0x00, 0x30] [] with A := 0x80, X := 0x7E, P := 0x26 }
    (fun t => t.P == 0x26 && t.pc == 0x0203 && t.cycle == 4 && t.memRead 0x3000 == 0x7E) = true := by decide
theorem test_styZp_F13 :
    goes { prog 0x0200 [0x84, 0x10] [] with A := 0x80, Y := 0x3C, P := 0x26 }
    (fun t => t.P == 0x26 && t.pc == 0x0202 && t.cycle == 3 && t.memRead 0x0010 == 0x3C) = true := by decide
theorem test_styZpX_F14 :
    goes { prog 0x0200 [0x94, 0x10] [] with A := 0x80, X := 0x0F, Y := 0x3C, P := 0x26 }
    (fun t => t.P == 0x26 && t.pc == 0x0202 && t.cycle == 4 && t.memRead 0x001F == 0x3C) = true := by decide
theorem test_styAbs_F15 :
    goes { prog 0x0200 [0x8C, 0xFF, 0xFF] [] with A := 0x80, Y := 0x3C, P := 0x26 }
    (fun t => t.P == 0x26 && t.pc == 0x0203 && t.cycle == 4 && t.memRead 0xFFFF == 0x3C) = true := by decide
theorem test_undefined_W1 :
    halts (prog 0x0200 [0x02, 0xEA] []) (.unimplementedOpcode 0x02 0x0200) = true := by decide
theorem test_undefined_W2 :
    halts { prog 0x1234 [0xFF] [] with A := 0x77, cycle := 1000 } (.unimplementedOpcode 0xFF 0x1234) = true := by decide
theorem test_undefined_W3 :
    halts (prog 0x0200 [0x1A] []) (.unimplementedOpcode 0x1A 0x0200) = true := by decide
theorem test_jsr_full_W13 :
    goes { prog 0x0200 [0x20, 0x00, 0x40] [] with S := 253 }
    (fun t => t.S == 255 && t.pc == 0x4000 && t.cycle == 6 && t.stackRead 254 == 0x02 && t.stackRead 255 == 0x02) = true := by decide
theorem test_brk_full_W14 :
    goes { prog 0x0200 [0x00, 0x00] [] with S := 252 }
    (fun t => t.S == 255 && t.cycle == 7 && t.stackRead 253 == 0x02 && t.stackRead 254 == 0x02 && t.stackRead 255 == 0x34) = true := by decide

/-! ### Witnesses: the hypotheses of the obligations can be met -/

/-- A configuration with two illegal NOPs. -/
def nops : Config := ⟨[(0x1A, 1), (0x80, 2)]⟩

/-- A state with a given stack index, a byte of memory and a stack byte in use. -/
def deep (s : Byte) : State :=
  { prog 0x0200 [0xEA] [(0x3000, 0x77)] with S := s, stack := bytes [(1, 0x12), (2, 0x34), (3, 0xFF)] }

/-- A state that some step has halted. -/
def stopped : State := { deep 0 with run := .halted .stackUnderflow }

theorem witness_DecodeOfEncodeIsInstruction : nops.wf = true ∧ Instr.wf nops (.nopIllegal 0x80 2) = true ∧
    Instr.wf nops (.ldaAbsX 0x1234) = true := by decide

theorem witness_DecodedBytesReencode : nops.wf = true ∧
    decode nops [0x80, 0x01] = .ok (.nopIllegal 0x80 2, [0x01]) ∧
    decode nops [0xBD, 0x34, 0x12, 0x00] = .ok (.ldaAbsX 0x1234, [0x00]) := ⟨rfl, rfl, rfl⟩

theorem witness_UnimplementedOpcodeHalts :
    let s := prog 0xFFFF [0x02] []
    s.run = .fetch ∧ s.memRead s.pc ∈ undefinedOpcodes ∧ ∀ e ∈ nops.illegalNops, e.1 ≠ s.memRead s.pc := by decide

theorem witness_IllegalNopChargesItsEntry :
    let s := prog 0xFFFF [0x1A] []
    nops.wf = true ∧ s.run = .fetch ∧ (s.memRead s.pc, 1) ∈ nops.illegalNops := by decide

theorem witness_StepRunsDecodedInstruction :
    let s := prog 0xFFFE [0xAD, 0x10, 0x20] []
    s.run = .fetch ∧ decode nops [s.memRead s.pc, s.memRead (s.pc + 1), s.memRead (s.pc + 2)] =
      .ok (.ldaAbs 0x2010, []) := ⟨rfl, rfl⟩

theorem witness_MemoryBytesRunTheirInstruction :
    let s := prog 0xFFFE [0xAD, 0x10, 0x20] []
    nops.wf = true ∧ Instr.wf nops (.ldaAbs 0x2010) = true ∧ s.run = .fetch ∧
      ∀ k : Nat, k < (encode (.ldaAbs 0x2010)).length →
        s.memRead (s.pc + BitVec.ofNat 16 k) = (encode (.ldaAbs 0x2010)).getD k 0 := by decide

theorem witness_FetchWordRunsTableInstruction :
    (deep 1).memory.wf = true ∧ decodeTableWord 24 0x2010AD = some (.ldaAbs 0x2010) := by decide

theorem witness_InvariantHoldsAfterReset :
    let m := bytes [(0xFFFF, 0x80), (0, 1)]
    let k := bytes [(255, 0xCC), (0, 1)]
    m.wf = true ∧ m.below 65536 = true ∧ k.wf = true ∧ k.below 256 = true := by decide

/-- A state with listed memory and stack bytes satisfies the invariant, and its step answers a next state. -/
theorem witness_StepKeepsInvariant :
    (deep 3).Inv ∧ ∃ t, stepWith nops (deep 3) = .next t :=
  ⟨⟨by decide, by decide, by decide, by decide, by decide⟩, _, rfl⟩

theorem witness_StatusBitFiveIsAlwaysOne :
    flagBit (deep 3) 5 = true ∧ ∃ t, stepWith nops (deep 3) = .next t := ⟨by decide, _, rfl⟩

theorem witness_HaltedIsFixedPoint : stopped.run = .halted .stackUnderflow := rfl

theorem witness_StepAlwaysAnswers : (deep 0).run = .fetch := rfl

/-- NOP and then 0x02: halted after two steps, and a run that ends with too little fuel. -/
theorem witness_RunUntilHaltIteratesStepInFetch_halts :
    let s := prog 0x0200 [0xEA, 0x02] []
    (∃ t, runUntilHaltWithin nops 2 s = some t ∧ runN nops 2 s = t ∧
      t.run = .halted (.unimplementedOpcode 0x02 0x0201) ∧ (runN nops 1 s).run = .fetch) ∧
    runUntilHaltWithin nops 1 s = none := ⟨⟨_, rfl, rfl, rfl, rfl⟩, rfl⟩

/-- `4C 00 02` at 0x0200: JMP to itself (R141). -/
def spin (c : Nat) : State := { prog 0x0200 [0x4C, 0x00, 0x02] [] with cycle := c }

theorem spin_step (c : Nat) : stepWith nops (spin c) = .next (spin (c + 3)) := by
  have hw : (spin c).fetchWindow = [0x4C, 0x00, 0x02] := rfl
  have hd : decode nops [0x4C, 0x00, 0x02] = .ok (.jmpAbs 0x0200, []) := by decide
  have hf : fetchInstr nops (spin c) = some (.jmpAbs 0x0200) := by rw [fetchInstr, hw, hd]
  rw [stepWith, show (spin c).run = .fetch from rfl]
  simp only [hf]
  rfl

theorem witness_RunUntilHaltIteratesStepInFetch_loops (n c : Nat) : (runN nops n (spin c)).run = .fetch := by
  induction n generalizing c with
  | zero => rfl
  | succ n ih => rw [runN_succ, stepState_of_next (spin_step c)]; exact ih (c + 3)

theorem witness_FaultingStepChangesOnlyRun_fetch :
    let s := prog 0x0200 [0x68] []
    stepReturn nops s = some (s.raise .stackUnderflow, .err .stackUnderflow) := by decide
theorem witness_FaultingStepChangesOnlyRun_opcode :
    let s := prog 0x0200 [0x02] []
    s.run = .fetch ∧ stepReturn nops s =
      some (s.raise (.unimplementedOpcode 0x02 0x0200), .err (.unimplementedOpcode 0x02 0x0200)) := by decide
theorem witness_FaultingStepChangesOnlyRun_halted :
    stepReturn nops stopped = some (stopped, .err .stackUnderflow) := by decide

theorem witness_OnlyStackInstructionsFault :
    (∃ t, exec .brk (deep 253) = .next t ∧ t.run = .halted .stackOverflow) ∧
    (∃ t, exec .rti (deep 2) = .next t ∧ t.run = .halted .stackUnderflow) := ⟨⟨_, rfl, rfl⟩, _, rfl, rfl⟩

theorem witness_CycleCounterGrowsAndIsNeverRead :
    nops.wf = true ∧ (∃ t, stepReturn nops (prog 0x0200 [0xEA] []) = some (t, .ok 2)) ∧
    (prog 0x0200 [0xEA] []).memRead 0x0200 ∉ undefinedOpcodes ∧
    (∃ t, stepReturn nops (prog 0x0200 [0x1A] []) = some (t, .ok 1)) ∧
    (∃ t, stepReturn nops (prog 0x0200 [0x68] []) = some (t, .err .stackUnderflow)) ∧
    ∃ t, exec .nop (deep 1) = .next t :=
  ⟨by decide, ⟨_, rfl⟩, by decide, ⟨_, rfl⟩, ⟨_, rfl⟩, _, rfl⟩

/-- A page-crossing load, a branch to another page, and an illegal NOP. -/
theorem witness_CostFollowsTheDispatchTable :
    (let s := { prog 0x0200 [0xBD, 0xFF, 0x20] [] with X := 1 }
     fetchInstr nops s = some (.ldaAbsX 0x20FF) ∧ (lookup (s.memRead s.pc)).isSome = true ∧
       ∃ t, stepReturn nops s = some (t, .ok 5)) ∧
    (let s := prog 0x0200 [0xD0, 0x80] []
     fetchInstr nops s = some (.bne 0x80) ∧ (lookup (s.memRead s.pc)).isSome = true ∧
       ∃ t, stepReturn nops s = some (t, .ok 4)) ∧
    (let s := prog 0x0200 [0x80] []
     fetchInstr nops s = some (.nopIllegal 0x80 2) ∧ lookup (s.memRead s.pc) = none ∧
       ∃ t, stepReturn nops s = some (t, .ok 2)) ∧
    ∃ t, stepReturn nops (prog 0x0200 [0x68] []) = some (t, .err .stackUnderflow) :=
  ⟨⟨rfl, rfl, _, rfl⟩, ⟨rfl, rfl, _, rfl⟩, ⟨rfl, rfl, _, rfl⟩, _, rfl⟩

/-- A one-byte instruction at the last address, and a branch that is not taken. -/
theorem witness_ProgramCounterAdvancesByLength :
    (let s := prog 0xFFFF [0xEA] []
     s.run = .fetch ∧ (∃ t, exec .nop s = .next t ∧ t.run = .fetch) ∧ mnemonicOf .nop ∉ jumpMnemonics ∧
       branchTaken (mnemonicOf .nop) s = false) ∧
    (let s := prog 0x02F0 [0xF0, 0x0E] []
     s.run = .fetch ∧ (∃ t, exec (.beq 0x0E) s = .next t ∧ t.run = .fetch) ∧
       mnemonicOf (.beq 0x0E) ∉ jumpMnemonics ∧ branchTaken (mnemonicOf (.beq 0x0E)) s = false) :=
  ⟨⟨rfl, ⟨_, rfl, rfl⟩, by decide, by decide⟩, rfl, ⟨_, rfl, rfl⟩, by decide, by decide⟩

/-- An address next to the stored one. -/
theorem witness_MemoryChangesOnlyWhereStored :
    nops.wf = true ∧ Instr.wf nops (.staAbs 0x3000) = true ∧ (∃ t, exec (.staAbs 0x3000) (deep 1) = .next t) ∧
    memOperandOf .absolute (encode (.staAbs 0x3000)) = some (.absolute 0x3000) ∧
    (0x3001 : Addr) ≠ (MemOperand.absolute 0x3000).ea (deep 1) :=
  ⟨by decide, by decide, ⟨_, rfl⟩, by decide, by decide⟩

theorem witness_StackChangesOnlyByPushesAboveS :
    nops.wf = true ∧ Instr.wf nops .pha = true ∧ (∃ t, exec .pha (deep 3) = .next t) ∧
    ((3 : Byte).toNat ≤ (deep 3).S.toNat) ∧ Instr.wf nops .tax = true ∧ (∃ t, exec .tax (deep 3) = .next t) ∧
    mnemonicOf .tax ∉ ["PHA", "PHP", "JSR", "BRK", "PLA", "PLP", "RTS", "RTI", "TXS"] :=
  ⟨by decide, by decide, ⟨_, rfl⟩, by decide, by decide, ⟨_, rfl⟩, by decide⟩

/-- ASL of memory is no writer of `A`, and INY is no writer of `X`. -/
theorem witness_RegistersChangeOnlyByTheirWriters :
    nops.wf = true ∧ Instr.wf nops (.aslZp 0x10) = true ∧ (∃ t, exec (.aslZp 0x10) (deep 1) = .next t) ∧
    mnemonicOf (.aslZp 0x10) ∉ ["ADC", "SBC", "AND", "ORA", "EOR", "LDA", "PLA", "TXA", "TYA"] ∧
    encode (.aslZp 0x10) ∉ [[(0x0A : Byte)], [0x4A], [0x2A], [0x6A]] ∧
    mnemonicOf .iny ∉ ["LDX", "TAX", "TSX", "INX", "DEX"] ∧ mnemonicOf .inx ∉ ["LDY", "TAY", "INY", "DEY"] :=
  ⟨by decide, by decide, ⟨_, rfl⟩, by decide, by decide, by decide, by decide⟩

/-- CMP is no writer of V. -/
theorem witness_FlagsChangeOnlyByTheirWriters :
    nops.wf = true ∧ Instr.wf nops (.cmpImm 0x80) = true ∧ (∃ t, exec (.cmpImm 0x80) (deep 1) = .next t) ∧
    mnemonicOf (.cmpImm 0x80) ∉ flagWriters 6 := ⟨by decide, by decide, ⟨_, rfl⟩, by decide⟩

/-- I and D differ, and the states differ in nothing else. -/
theorem witness_FlagsIDBInfluenceNothing :
    Instr.adcImm 0x09 ≠ .php ∧ Instr.adcImm 0x09 ≠ .brk ∧
    AgreeButIDB { deep 1 with P := 0x2C } { deep 1 with P := 0x20 } :=
  ⟨by decide, by decide, by decide, rfl⟩

/-- The stack buffers differ at slot 0 and above `S`. -/
theorem witness_UnpushedStackSlotsAreUnobservable :
    Instr.pla ≠ .txs ∧ (deep 2).stack.wf = true ∧ (bytes [(0, 9), (1, 0x12), (2, 0x34), (255, 7)]).wf = true ∧
    AgreeOnLiveStack (deep 2) { deep 2 with stack := bytes [(0, 9), (1, 0x12), (2, 0x34), (255, 7)] } :=
  ⟨by decide, by decide, by decide, by decide, rfl⟩

theorem witness_EffectiveAddressesWrapAsTheirModesSay :
    dispatchTable.any (fun r => decide (r.mode = .zeroPageY)) = true ∧
    dispatchTable.any (fun r => decide (r.extra = .pageCross)) = true := ⟨rfl, rfl⟩

theorem witness_MemoryIsPlainStorage : (deep 1).memory.wf = true ∧ (0xFFFF : Addr) ≠ 0x0000 := by decide

theorem witness_EqualReadsMeanEqualMemories :
    (bytes [(5, 1), (0, 2)]).wf = true ∧ (bytes [(0, 2), (7, 3), (5, 1), (7, 0)]).wf = true ∧
    ∀ a : Nat, (bytes [(5, 1), (0, 2)]).read a = (bytes [(0, 2), (7, 3), (5, 1), (7, 0)]).read a :=
  ⟨by decide, by decide, fun _ => rfl⟩

theorem witness_StackPushAndPop :
    (deep 255).stack.wf = true ∧ (deep 255).S.toNat = 255 ∧ (deep 254).S.toNat < 255 ∧ (deep 0).S.toNat = 0 ∧
    0 < (deep 1).S.toNat := by decide

/-- The lists of forms hold the forms of the encoding tables; one of each kind of list. -/
theorem witness_forms :
    (⟨[0x71, 0x12], .adcIndY 0x12, .memory (.indirectY 0x12), 5, .pageCross⟩ : InstrForm Operand) ∈
      adcForms 0x12 0x34 0x56 ∧
    (⟨[0x9D, 0x56, 0x34], .staAbsX 0x3456, .absoluteX 0x3456, 5, .none⟩ : InstrForm MemOperand) ∈
      staForms 0x12 0x34 0x56 ∧
    (⟨[0x0A], .aslAcc, .accumulator, 2, .none⟩ : InstrForm Place) ∈ aslForms 0x12 0x34 0x56 :=
  ⟨by simp [adcForms], by simp [staForms, wordOf], by simp [aslForms]⟩

/-- `ShiftsMoveByOneBit`, `RotatesPassThroughCarry`, `MemoryIncrementAndDecrementWrap`, `StoresWriteOneByte` and
`StoredByteIsTheNextOpcode` ask for canonical memory. -/
theorem witness_StoresWriteOneByte : (deep 1).memory.wf = true ∧ (deep 1).memory ≠ [] := by decide
theorem witness_ShiftsMoveByOneBit : (deep 1).memory.wf = true := by decide
theorem witness_RotatesPassThroughCarry : (deep 1).memory.wf = true := by decide
theorem witness_MemoryIncrementAndDecrementWrap : (deep 1).memory.wf = true := by decide

/-- BNE taken, BEQ not taken, on the same state. -/
theorem witness_BranchesTestOneFlag :
    (⟨[0xD0, 0x80], .bne 0x80, (1, false), 2, .branch⟩ : InstrForm (Nat × Bool)) ∈ branchForms 0x80 ∧
    flagBit (deep 1) 1 = false ∧
    (⟨[0xF0, 0x80], .beq 0x80, (1, true), 2, .branch⟩ : InstrForm (Nat × Bool)) ∈ branchForms 0x80 ∧
    flagBit (deep 1) 1 ≠ true := ⟨by simp [branchForms], by decide, by simp [branchForms], by decide⟩

theorem witness_JsrPushesItsLastByteAddress :
    (deep 253).stack.wf = true ∧ (deep 253).S.toNat ≤ 253 ∧ 254 ≤ (deep 254).S.toNat := by decide
theorem witness_RtsReturnsPastThePoppedAddress : 2 ≤ (deep 2).S.toNat ∧ (deep 1).S.toNat ≤ 1 := by decide
theorem witness_BrkEntersThroughTheVector :
    (deep 252).stack.wf = true ∧ (deep 252).S.toNat ≤ 252 ∧ 253 ≤ (deep 253).S.toNat := by decide
theorem witness_RtiRestoresStatusAndPc : 3 ≤ (deep 3).S.toNat ∧ (deep 2).S.toNat ≤ 2 := by decide
theorem witness_PushesWriteTheNextSlot :
    (deep 254).stack.wf = true ∧ (deep 254).S.toNat < 255 ∧ (deep 255).S.toNat = 255 := by decide
theorem witness_PullsReadTheTopSlot : 0 < (deep 1).S.toNat ∧ (deep 0).S.toNat = 0 := by decide

/-- Both sides of every bound: n = 1, 2, 3. -/
theorem witness_StackFaultsCheckBeforeWriting :
    (deep 0).run = .fetch ∧
    ((deep 255).S.toNat + 1 > 255 ∧ (deep 254).S.toNat + 1 ≤ 255) ∧
    ((deep 254).S.toNat + 2 > 255 ∧ (deep 253).S.toNat + 2 ≤ 255) ∧
    ((deep 253).S.toNat + 3 > 255 ∧ (deep 252).S.toNat + 3 ≤ 255) ∧
    ((deep 0).S.toNat < 1 ∧ 1 ≤ (deep 1).S.toNat) ∧ ((deep 1).S.toNat < 2 ∧ 2 ≤ (deep 2).S.toNat) ∧
    ((deep 2).S.toNat < 3 ∧ 3 ≤ (deep 3).S.toNat) := by decide

theorem witness_RtsUndoesJsr : (deep 253).stack.wf = true ∧ (deep 253).S.toNat ≤ 253 := by decide
theorem witness_RtiUndoesBrk : (deep 252).stack.wf = true ∧ (deep 252).S.toNat ≤ 252 := by decide
theorem witness_PullsUndoPushes : (deep 254).stack.wf = true ∧ (deep 254).S.toNat < 255 := by decide

/-- The stored byte 0xEA decodes as NOP. -/
theorem witness_StoredByteIsTheNextOpcode :
    let s := { deep 1 with A := 0xEA }
    s.memory.wf = true ∧ (∃ t, exec (.staAbs (s.pc + 3)) s = .next t ∧ t.run = .fetch ∧
      decode nops [s.A, t.memRead (t.pc + 1), t.memRead (t.pc + 2)] = .ok (.nop, [0x00, 0x00])) :=
  ⟨by decide, _, rfl, rfl, rfl⟩

end Sys2Proof.Tests
end

section
/-! PROOFS. The family `10_state.md`: the fields after reset (R19) and bit 5 of `P` (R11). -/

namespace Sys2Proof.Machine

/-- Settles O10: `State.construct` writes the values of R19 as they stand. -/
theorem resetConstructsTheSpecState : Obligations.ResetConstructsTheSpecState :=
  fun _ _ _ => ⟨rfl, rfl⟩

/-! ### Bit 5 of `P` -/

theorem setZN_bit5 (p v : Byte) : (setZN p v).getLsbD 5 = true := assign_bit5 _ _ _

/-- PLP and RTI force bit 5 of the byte they pop (R105, R109). -/
theorem or_mask1_bit5 (p : Byte) : (p ||| mask1).getLsbD 5 = true := by
  simp [mask1]

/-- An instruction that reads an operand ends its rule with a flag write. -/
theorem ReadEffect.bit5 {e : State → Byte → State} (h : ReadEffect e) (s : State) (v : Byte) :
    (e s v).P.getLsbD 5 = true := by
  cases h with
  | adc | sbc => exact setZN_bit5 _ _
  | and | ora | eor | lda | ldx | ldy => exact setZN_bit5 _ _
  | bit | cmp | cpx | cpy => exact assign_bit5 _ _ _

theorem ModifyEffect.bit5 {f : Byte → Byte → Byte × Byte} (h : ModifyEffect f) (v p : Byte) :
    (f v p).2.getLsbD 5 = true := by
  cases h <;> exact setZN_bit5 _ _

theorem ImpliedEffect.keeps_bit5 {e : State → State} (h : ImpliedEffect e) {s : State}
    (hs : s.P.getLsbD 5 = true) : (e s).P.getLsbD 5 = true := by
  cases h with
  | loadA | loadX | loadY => exact setZN_bit5 _ _
  | flag f b => exact assign_bit5 _ _ _
  | txs | nop => exact hs

/-- Every write of `P` sets bit 5, and what does not write `P` keeps it (R11). -/
theorem ExecShape.keeps_bit5 {s t : State} {o : Host.Outcome State Fault Refusal} (h : ExecShape s o)
    (ho : o = .next t) (hs : s.P.getLsbD 5 = true) : t.P.getLsbD 5 = true := by
  cases h with
  | read h => cases ho; exact h.bit5 _ _
  | store => cases ho; exact hs
  | modify h => cases ho; exact h.bit5 _ _
  | implied h => cases ho; exact h.keeps_bit5 hs
  | branch cond d =>
    obtain ⟨pc, cycle, hb⟩ := branchInstr_next cond d s
    rw [hb] at ho; cases ho; exact hs
  | jump => cases ho; exact hs
  | jsr => obtain ⟨-, rfl⟩ | ⟨-, -, -, rfl⟩ := execJsr_cases ho <;> exact hs
  | rts => obtain ⟨-, rfl⟩ | ⟨-, -, -, rfl⟩ := execRts_cases ho <;> exact hs
  | brk =>
    obtain ⟨-, rfl⟩ | ⟨-, -, -, -, rfl⟩ := execBrk_cases ho
    · exact hs
    · exact assign_bit5 _ _ _
  | rti =>
    obtain ⟨-, rfl⟩ | ⟨-, -, -, -, rfl⟩ := execRti_cases ho
    · exact hs
    · exact or_mask1_bit5 _
  | pha | php => obtain ⟨-, rfl⟩ | ⟨-, -, rfl⟩ := execPush_cases ho <;> exact hs
  | pla =>
    obtain ⟨-, rfl⟩ | ⟨-, -, rfl⟩ := execPla_cases ho
    · exact hs
    · exact setZN_bit5 _ _
  | plp =>
    obtain ⟨-, rfl⟩ | ⟨-, -, rfl⟩ := execPlp_cases ho
    · exact hs
    · exact or_mask1_bit5 _

theorem stepWith_keeps_bit5 {cfg : Config} {s t : State} (hs : s.P.getLsbD 5 = true)
    (h : stepWith cfg s = .next t) : t.P.getLsbD 5 = true := by
  obtain ⟨-, ⟨i, -, hi⟩ | ⟨-, rfl⟩⟩ := stepWith_cases h
  · exact (exec_shape i s).keeps_bit5 hi hs
  · exact hs

/-! ### What every step keeps, every run keeps -/

/-- A predicate that every answered step keeps holds of the state after a call of `step`. -/
theorem stepState_keeps {cfg : Config} {p : State → Prop}
    (hstep : ∀ s t, p s → stepWith cfg s = .next t → p t) {s : State} (hs : p s) : p (stepState cfg s) := by
  cases hr : s.run with
  | halted f => rwa [stepState_of_halted hr]
  | fetch =>
    obtain ⟨t, ht⟩ := stepWith_next (cfg := cfg) hr
    rw [stepState_of_next ht]
    exact hstep s t hs ht

/-- A predicate that every answered step keeps holds after any number of steps. -/
theorem runN_keeps {cfg : Config} (p : State → Prop)
    (hstep : ∀ s t, p s → stepWith cfg s = .next t → p t) (n : Nat) {s : State} (hs : p s) :
    p (runN cfg n s) := by
  induction n generalizing s with
  | zero => exact hs
  | succ n ih => exact ih (stepState_keeps hstep hs)

/-- The reset value of `P`, 0x24, has bit 5 (R11, R19). -/
theorem construct_bit5 (entry : Addr) (memInit stackInit : Memory) :
    (State.construct entry memInit stackInit).P.getLsbD 5 = true := by
  simp [State.construct]

/-- Settles O13: every step keeps bit 5, so every run from a reset state has it. -/
theorem statusBitFiveIsAlwaysOne : Obligations.StatusBitFiveIsAlwaysOne :=
  ⟨fun _ _ _ => stepWith_keeps_bit5, fun _ n _ _ _ =>
    runN_keeps (fun s => s.P.getLsbD 5 = true) (fun _ _ => stepWith_keeps_bit5) n (construct_bit5 _ _ _)⟩

end Sys2Proof.Machine
end

section
/-! PROOFS. What fetch finds: a row's instruction, or an illegal NOP of the configuration (R132). -/

namespace Sys2Proof

/-- The least number of cycles an instruction can add (R16): an illegal NOP adds what its entry says. -/
def Instr.minCycles : Instr → Nat
  | .nopIllegal _ cyc => cyc
  | _ => 2

/-- The instruction a row of this form stands for, with `b` or `w` as its operand (R33). -/
def Form.instr (b : Byte) (w : Addr) : Form → Instr
  | .f1 i => i
  | .f2 make => make b
  | .f3 make => make w

theorem Form.eq_instr_of_read {f : Form} {op : Byte} {bytes rest : List Byte} {i : Instr}
    (h : f.read op bytes = .ok (i, rest)) : ∃ b w, i = f.instr b w := by
  match f, bytes, h with
  | .f1 _, _, rfl => exact ⟨0, 0, rfl⟩
  | .f2 _, b :: _, rfl => exact ⟨b, 0, rfl⟩
  | .f3 _, l :: h :: _, rfl => exact ⟨0, wordOf h l, rfl⟩

/-- No row stands for an illegal NOP, whatever its operand bytes are. -/
theorem minCycles_of_row (b : Byte) (w : Addr) :
    ∀ row ∈ dispatchTable, (row.form.instr b w).minCycles = 2 := by
  have h : dispatchTable.all (fun row => (row.form.instr b w).minCycles == 2) = true := rfl
  simpa using h

/-- Every byte without a row is one of those R37 lists. -/
theorem mem_undefinedOpcodes_of_lookup (op : Byte) (h : lookup op = none) : op ∈ undefinedOpcodes := by
  have all : ∀ op : Byte, (lookup op).isNone = true → op ∈ undefinedOpcodes := by decide +kernel
  exact all op (by simp [h])

/-- An entry of a well-formed configuration costs at least one cycle (R38). -/
theorem one_le_of_illegalNop {cfg : Config} {op : Byte} {e : Byte × Nat} (hcfg : cfg.wf = true)
    (h : illegalNop cfg op = some e) : 1 ≤ e.2 := by
  have hall := (Bool.and_eq_true_iff.mp hcfg).1
  have he := List.all_eq_true.mp hall e (List.mem_of_find?_eq_some h)
  simpa using (Bool.and_eq_true_iff.mp he).2

/-- What decoding under a well-formed configuration says of the cost: at least 2 by a row, at least 1 otherwise. -/
theorem minCycles_of_decode {cfg : Config} {op : Byte} {bytes rest : List Byte} {i : Instr} (hcfg : cfg.wf = true)
    (h : decode cfg (op :: bytes) = .ok (i, rest)) :
    1 ≤ i.minCycles ∧ (op ∉ undefinedOpcodes → 2 ≤ i.minCycles) := by
  cases hl : lookup op with
  | some row =>
    rw [decode_of_lookup bytes hl] at h
    obtain ⟨b, w, rfl⟩ := Form.eq_instr_of_read h
    simp [minCycles_of_row b w row (lookup_mem hl).1]
  | none =>
    rw [decode_of_no_row bytes hl] at h
    cases hn : illegalNop cfg op with
    | some e =>
      simp only [hn] at h
      cases h
      exact ⟨one_le_of_illegalNop hcfg hn, fun hop => absurd (mem_undefinedOpcodes_of_lookup op hl) hop⟩
    | none => simp [hn] at h

end Sys2Proof
end

section
/-! PROOFS. The meaning of every instruction as a function of the state, classified once. `ExecShape` speaks of one
state's outcome; a fact about two related states needs the rule itself, and a bound of the cost needs the base count. -/

namespace Sys2Proof.Machine

/-- The bytes that an Implied instruction or a store takes from the registers. -/
inductive RegisterByte : (State → Byte) → Prop
  | A : RegisterByte State.A
  | X : RegisterByte State.X
  | Y : RegisterByte State.Y
  | S : RegisterByte State.S
  | pred {v} (h : RegisterByte v) : RegisterByte (fun t => v t - 1)
  | succ {v} (h : RegisterByte v) : RegisterByte (fun t => v t + 1)

/-- The rules of the Implied instructions that leave the stack buffer alone, with what they read. -/
inductive ImpliedRule : (State → State) → Prop
  | loadA {v} (h : RegisterByte v) : ImpliedRule (fun t => t.loadA (v t))
  | loadX {v} (h : RegisterByte v) : ImpliedRule (fun t => t.loadX (v t))
  | loadY {v} (h : RegisterByte v) : ImpliedRule (fun t => t.loadY (v t))
  | txs : ImpliedRule (fun t => { t with S := t.X })
  | flag (f : Flag) (b : Bool) : ImpliedRule (fun t => t.setP (assign t.P f b))
  | nop : ImpliedRule (fun t => t)

/-- The conditions of the branches (R92 to R99): I and D are not tested. -/
inductive BranchCondition : (Byte → Bool) → Prop
  | set (f : Flag) (hf : f ≠ .I ∧ f ≠ .D := by decide) : BranchCondition (fun p => test p f)
  | clear (f : Flag) (hf : f ≠ .I ∧ f ≠ .D := by decide) : BranchCondition (fun p => !test p f)

/-- The meanings whose base count is at least the given one. -/
inductive Meaning : Nat → (State → Host.Outcome State Fault Refusal) → Prop
  | read {e} (h : ReadEffect e) (o : Operand) (c : Nat) (x : Extra) (hc : 2 ≤ c := by decide) :
      Meaning 2 (readInstr e o c x)
  | store {v} (h : RegisterByte v) (m : MemOperand) (c : Nat) (hc : 2 ≤ c := by decide) :
      Meaning 2 (fun s => storeInstr (v s) m c s)
  | modify {f} (h : ModifyEffect f) (pl : Place) (c : Nat) (hc : 2 ≤ c := by decide) :
      Meaning 2 (modifyInstr f pl c)
  | implied {e} (h : ImpliedRule e) (c : Nat) : Meaning c (impliedInstr e c)
  | branch {cond} (h : BranchCondition cond) (d : Byte) : Meaning 2 (fun s => branchInstr (cond s.P) d s)
  | jumpTo (w : Addr) : Meaning 2 (execJmpAbs w)
  | jumpVia (w : Addr) : Meaning 2 (execJmpInd w)
  | jsr (w : Addr) : Meaning 2 (execJsr w)
  | rts : Meaning 2 execRts
  | brk : Meaning 2 execBrk
  | rti : Meaning 2 execRti
  | pha : Meaning 2 execPha
  | pla : Meaning 2 execPla
  | php : Meaning 2 execPhp
  | plp : Meaning 2 execPlp

/-- Every instruction has one of the meanings, with the base count R16 promises. -/
theorem exec_meaning (i : Instr) : Meaning i.minCycles (exec i) := by
  cases i with
  | adcImm | adcZp | adcZpX | adcAbs | adcAbsX | adcAbsY | adcIndX | adcIndY => exact .read .adc _ _ _
  | sbcImm | sbcZp | sbcZpX | sbcAbs | sbcAbsX | sbcAbsY | sbcIndX | sbcIndY => exact .read .sbc _ _ _
  | andImm | andZp | andZpX | andAbs | andAbsX | andAbsY | andIndX | andIndY => exact .read .and _ _ _
  | oraImm | oraZp | oraZpX | oraAbs | oraAbsX | oraAbsY | oraIndX | oraIndY => exact .read .ora _ _ _
  | eorImm | eorZp | eorZpX | eorAbs | eorAbsX | eorAbsY | eorIndX | eorIndY => exact .read .eor _ _ _
  | bitZp | bitAbs => exact .read .bit _ _ _
  | aslAcc | aslZp | aslZpX | aslAbs | aslAbsX => exact .modify .asl _ _
  | lsrAcc | lsrZp | lsrZpX | lsrAbs | lsrAbsX => exact .modify .lsr _ _
  | rolAcc | rolZp | rolZpX | rolAbs | rolAbsX => exact .modify .rol _ _
  | rorAcc | rorZp | rorZpX | rorAbs | rorAbsX => exact .modify .ror _ _
  | cmpImm | cmpZp | cmpZpX | cmpAbs | cmpAbsX | cmpAbsY | cmpIndX | cmpIndY => exact .read .cmp _ _ _
  | cpxImm | cpxZp | cpxAbs => exact .read .cpx _ _ _
  | cpyImm | cpyZp | cpyAbs => exact .read .cpy _ _ _
  | decZp | decZpX | decAbs | decAbsX => exact .modify .dec _ _
  | incZp | incZpX | incAbs | incAbsX => exact .modify .inc _ _
  | dex => exact .implied (.loadX (.pred .X)) _
  | dey => exact .implied (.loadY (.pred .Y)) _
  | inx => exact .implied (.loadX (.succ .X)) _
  | iny => exact .implied (.loadY (.succ .Y)) _
  | bcc => exact .branch (.clear .C) _
  | bcs => exact .branch (.set .C) _
  | beq => exact .branch (.set .Z) _
  | bne => exact .branch (.clear .Z) _
  | bmi => exact .branch (.set .N) _
  | bpl => exact .branch (.clear .N) _
  | bvc => exact .branch (.clear .V) _
  | bvs => exact .branch (.set .V) _
  | jmpAbs => exact .jumpTo _
  | jmpInd => exact .jumpVia _
  | jsr => exact .jsr _
  | rts => exact .rts
  | brk => exact .brk
  | rti => exact .rti
  | pha => exact .pha
  | pla => exact .pla
  | php => exact .php
  | plp => exact .plp
  | tax => exact .implied (.loadX .A) _
  | tay => exact .implied (.loadY .A) _
  | txa => exact .implied (.loadA .X) _
  | tya => exact .implied (.loadA .Y) _
  | tsx => exact .implied (.loadX .S) _
  | txs => exact .implied .txs _
  | clc => exact .implied (.flag .C false) _
  | sec => exact .implied (.flag .C true) _
  | cli => exact .implied (.flag .I false) _
  | sei => exact .implied (.flag .I true) _
  | clv => exact .implied (.flag .V false) _
  | cld => exact .implied (.flag .D false) _
  | sed => exact .implied (.flag .D true) _
  | nop | nopIllegal => exact .implied .nop _
  | ldaImm | ldaZp | ldaZpX | ldaAbs | ldaAbsX | ldaAbsY | ldaIndX | ldaIndY => exact .read .lda _ _ _
  | ldxImm | ldxZp | ldxZpY | ldxAbs | ldxAbsY => exact .read .ldx _ _ _
  | ldyImm | ldyZp | ldyZpX | ldyAbs | ldyAbsX => exact .read .ldy _ _ _
  | staZp | staZpX | staAbs | staAbsX | staAbsY | staIndX | staIndY => exact .store .A _ _
  | stxZp | stxZpY | stxAbs => exact .store .X _ _
  | styZp | styZpX | styAbs => exact .store .Y _ _

/-! ### Nothing reads the cycle counter -/

/-- The state with `k` more elapsed cycles. -/
def State.addCycles (s : State) (k : Nat) : State := { s with cycle := s.cycle + k }

/-- The outcome with `k` more elapsed cycles in the next state. -/
def addCyclesToNext (k : Nat) : Host.Outcome State Fault Refusal → Host.Outcome State Fault Refusal
  | .next t => .next (t.addCycles k)
  | o => o

/-! The stack rules write their sequence as `Except.bind`; the library has these laws for `>>=` and `<$>`. -/

@[simp] theorem except_bind_map {ε α β γ : Type} (x : Except ε α) (f : α → β) (g : β → Except ε γ) :
    (x.map f).bind g = x.bind (fun a => g (f a)) := bind_map_left f x g

@[simp] theorem except_map_bind {ε α β γ : Type} (x : Except ε α) (g : α → Except ε β) (f : β → γ) :
    (x.bind g).map f = x.bind (fun a => (g a).map f) := map_bind f x g

@[simp] theorem except_map_ok {ε α β : Type} (a : α) (f : α → β) :
    (Except.ok a : Except ε α).map f = .ok (f a) := rfl

section
variable (s : State) (k : Nat)

@[simp] theorem addCyclesToNext_next (t : State) : addCyclesToNext k (.next t) = .next (t.addCycles k) := rfl

@[simp] theorem State.addCycles_P : (s.addCycles k).P = s.P := rfl
@[simp] theorem State.addCycles_pc : (s.addCycles k).pc = s.pc := rfl
@[simp] theorem State.addCycles_A : (s.addCycles k).A = s.A := rfl
@[simp] theorem State.addCycles_S : (s.addCycles k).S = s.S := rfl
@[simp] theorem State.addCycles_memRead (a : Addr) : (s.addCycles k).memRead a = s.memRead a := rfl
@[simp] theorem State.addCycles_brkVector : (s.addCycles k).brkVector = s.brkVector := rfl
@[simp] theorem State.addCycles_memWrite (a : Addr) (v : Byte) :
    (s.addCycles k).memWrite a v = (s.memWrite a v).addCycles k := rfl
@[simp] theorem State.addCycles_setP (p : Byte) : (s.addCycles k).setP p = (s.setP p).addCycles k := rfl
@[simp] theorem State.addCycles_loadA (v : Byte) : (s.addCycles k).loadA v = (s.loadA v).addCycles k := rfl
@[simp] theorem State.addCycles_loadX (v : Byte) : (s.addCycles k).loadX v = (s.loadX v).addCycles k := rfl
@[simp] theorem State.addCycles_loadY (v : Byte) : (s.addCycles k).loadY v = (s.loadY v).addCycles k := rfl
@[simp] theorem State.addCycles_raise (f : Fault) : (s.addCycles k).raise f = (s.raise f).addCycles k := rfl
@[simp] theorem State.addCycles_advance (len cost : Nat) :
    (s.addCycles k).advance len cost = (s.advance len cost).addCycles k := by
  simp [State.addCycles, State.advance, Nat.add_right_comm]
@[simp] theorem State.addCycles_goto (w : Addr) (cost : Nat) :
    (s.addCycles k).goto w cost = (s.goto w cost).addCycles k := by
  simp [State.addCycles, State.goto, Nat.add_right_comm]

@[simp] theorem MemOperand.ea_addCycles (m : MemOperand) : m.ea (s.addCycles k) = m.ea s := by
  cases m <;> rfl

@[simp] theorem MemOperand.crossed_addCycles (m : MemOperand) : m.crossed (s.addCycles k) = m.crossed s := by
  cases m <;> rfl

@[simp] theorem Operand.value_addCycles (o : Operand) : o.value (s.addCycles k) = o.value s := by
  cases o <;> simp [Operand.value]

@[simp] theorem Operand.crossed_addCycles (o : Operand) : o.crossed (s.addCycles k) = o.crossed s := by
  cases o <;> simp [Operand.crossed]

@[simp] theorem Place.value_addCycles (pl : Place) : pl.value (s.addCycles k) = pl.value s := by
  cases pl <;> simp [Place.value]

@[simp] theorem Place.writeback_addCycles (pl : Place) (r : Byte) :
    pl.writeback (s.addCycles k) r = (pl.writeback s r).addCycles k := by
  cases pl with
  | accumulator => rfl
  | memory m => simp [Place.writeback]

theorem ReadEffect.addCycles {e : State → Byte → State} (h : ReadEffect e) (v : Byte) :
    e (s.addCycles k) v = (e s v).addCycles k := by
  cases h <;> rfl

theorem RegisterByte.addCycles {v : State → Byte} (h : RegisterByte v) : v (s.addCycles k) = v s := by
  induction h with
  | A | X | Y | S => rfl
  | pred _ ih | succ _ ih => simp only [ih]

theorem ImpliedRule.addCycles {e : State → State} (h : ImpliedRule e) :
    e (s.addCycles k) = (e s).addCycles k := by
  cases h with
  | loadA h | loadX h | loadY h => simp [h.addCycles]
  | txs | flag | nop => rfl

theorem branchInstr_addCycles (cond : Bool) (d : Byte) :
    branchInstr cond d (s.addCycles k) = addCyclesToNext k (branchInstr cond d s) := by
  cases cond <;> simp [branchInstr, relativeTarget]

/-! The stack primitives do the same writes whatever the counter holds. -/

@[simp] theorem State.addCycles_push (v : Byte) :
    (s.addCycles k).push v = (s.push v).map (·.addCycles k) := by
  rw [State.push, State.push, State.addCycles_S]
  split <;> rfl

@[simp] theorem State.addCycles_pop :
    (s.addCycles k).pop = s.pop.map (fun r => (r.1, r.2.addCycles k)) := by
  rw [State.pop, State.pop, State.addCycles_S]
  split <;> rfl

@[simp] theorem addCyclesToNext_commit (r : Except Fault State) :
    addCyclesToNext k (commit s r) = commit (s.addCycles k) (r.map (·.addCycles k)) := by
  cases r <;> rfl

@[simp] theorem State.addCycles_pushWord (w : Addr) :
    (s.addCycles k).pushWord w = (s.pushWord w).map (·.addCycles k) := by
  simp [State.pushWord]

@[simp] theorem State.addCycles_popWord :
    (s.addCycles k).popWord = s.popWord.map (fun r => (r.1, r.2.addCycles k)) := by
  simp [State.popWord]

@[simp] theorem State.addCycles_enterTrap (cost : Nat) :
    (s.addCycles k).enterTrap cost = (s.enterTrap cost).map (·.addCycles k) := by
  simp [State.enterTrap]

@[simp] theorem State.addCycles_leaveTrap (cost : Nat) :
    (s.addCycles k).leaveTrap cost = (s.leaveTrap cost).map (·.addCycles k) := by
  simp [State.leaveTrap]

/-- No instruction reads the counter: its outcome with `k` more cycles before is the outcome with `k` more after. -/
theorem Meaning.addCycles {lo : Nat} {m : State → Host.Outcome State Fault Refusal} (h : Meaning lo m) :
    m (s.addCycles k) = addCyclesToNext k (m s) := by
  cases h with
  | read h => simp [h.addCycles]
  | store h => simp [h.addCycles]
  | modify h => simp
  | implied h => simp [h.addCycles]
  | branch => exact branchInstr_addCycles _ _ _ _
  | jumpTo => simp [execJmpAbs]
  | jumpVia => simp [execJmpInd, indirectTarget]
  | jsr => simp [execJsr]
  | rts => simp [execRts]
  | brk => simp [execBrk]
  | rti => simp [execRti]
  | pha => simp [execPha]
  | pla => simp [execPla]
  | php => simp [execPhp]
  | plp => simp [execPlp]

end

/-! ### What an instruction and a step do to the cycle counter -/

section
variable {s : State}

theorem ReadEffect.cycle {e : State → Byte → State} (h : ReadEffect e) (v : Byte) : (e s v).cycle = s.cycle := by
  cases h <;> rfl

theorem ReadEffect.run {e : State → Byte → State} (h : ReadEffect e) (v : Byte) : (e s v).run = s.run := by
  cases h <;> rfl

theorem ImpliedRule.cycle {e : State → State} (h : ImpliedRule e) : (e s).cycle = s.cycle := by
  cases h <;> rfl

theorem ImpliedRule.run {e : State → State} (h : ImpliedRule e) : (e s).run = s.run := by
  cases h <;> rfl

@[simp] theorem Place.writeback_cycle (pl : Place) (r : Byte) : (pl.writeback s r).cycle = s.cycle := by
  cases pl <;> rfl

@[simp] theorem Place.writeback_run (pl : Place) (r : Byte) : (pl.writeback s r).run = s.run := by
  cases pl <;> rfl

theorem branchInstr_outcome {cond : Bool} {d : Byte} {t : State} (ht : branchInstr cond d s = .next t) :
    t.run = s.run ∧ s.cycle + 2 ≤ t.cycle := by
  cases cond with
  | false => cases ht; exact ⟨rfl, Nat.le_refl _⟩
  | true => cases ht; exact ⟨rfl, by rw [State.goto_cycle]; omega⟩

/-- An instruction raises a fault, or leaves the loop as it was and adds at least its base count (R136, R137). -/
theorem Meaning.outcome {lo : Nat} {m : State → Host.Outcome State Fault Refusal} {t : State} (h : Meaning lo m)
    (ht : m s = .next t) : (∃ f, t = s.raise f) ∨ (t.run = s.run ∧ s.cycle + lo ≤ t.cycle) := by
  cases h with
  | read h o c x hc => cases ht; exact .inr ⟨h.run _, by simp [h.cycle]; omega⟩
  | store h m c hc => cases ht; exact .inr ⟨rfl, by simpa⟩
  | modify h pl c hc => cases ht; exact .inr ⟨by simp, by simpa using hc⟩
  | implied h c => cases ht; exact .inr ⟨h.run, by simp [h.cycle]⟩
  | branch => exact .inr (branchInstr_outcome ht)
  | jumpTo | jumpVia => cases ht; exact .inr ⟨rfl, by simp⟩
  | jsr => obtain ⟨-, rfl⟩ | ⟨-, -, -, rfl⟩ := execJsr_cases ht <;> simp
  | rts => obtain ⟨-, rfl⟩ | ⟨-, -, -, rfl⟩ := execRts_cases ht <;> simp
  | brk => obtain ⟨-, rfl⟩ | ⟨-, -, -, -, rfl⟩ := execBrk_cases ht <;> simp
  | rti => obtain ⟨-, rfl⟩ | ⟨-, -, -, -, rfl⟩ := execRti_cases ht <;> simp
  | pha | php => obtain ⟨-, rfl⟩ | ⟨-, -, rfl⟩ := execPush_cases ht <;> simp
  | pla => obtain ⟨-, rfl⟩ | ⟨-, -, rfl⟩ := execPla_cases ht <;> simp
  | plp => obtain ⟨-, rfl⟩ | ⟨-, -, rfl⟩ := execPlp_cases ht <;> simp

/-- A step that returns `Ok(c)` adds `c`, at least the base count of the instruction it fetched (R136, R139). -/
theorem stepReturn_ok {cfg : Config} {t : State} {c : Nat} (h : stepReturn cfg s = some (t, .ok c)) :
    ∃ i, fetchInstr cfg s = some i ∧ t.cycle = s.cycle + c ∧ i.minCycles ≤ c := by
  obtain ⟨f, -, -, hf⟩ | ⟨hs, hstep, ⟨ht, hc⟩ | ⟨f, -, hf⟩⟩ := stepReturn_cases h
  · cases hf
  · obtain ⟨-, ⟨i, hi, hexec⟩ | ⟨-, rfl⟩⟩ := stepWith_cases hstep
    · obtain ⟨f, rfl⟩ | ⟨-, hcyc⟩ := (exec_meaning i).outcome hexec
      · cases ht
      · cases hc
        exact ⟨i, hi, by omega, by omega⟩
    · cases ht
  · cases hf

/-- A step that returns `Err(f)` adds nothing (R138, R147). -/
theorem stepReturn_err_cycle {cfg : Config} {t : State} {f : Fault} (h : stepReturn cfg s = some (t, .err f)) :
    t.cycle = s.cycle := by
  obtain ⟨-, -, rfl, -⟩ | ⟨hs, hstep, ⟨-, hok⟩ | ⟨g, ht, -⟩⟩ := stepReturn_cases h
  · rfl
  · cases hok
  · obtain ⟨-, ⟨i, -, hexec⟩ | ⟨-, rfl⟩⟩ := stepWith_cases hstep
    · obtain ⟨g, rfl⟩ | ⟨hrun, -⟩ := (exec_meaning i).outcome hexec
      · rfl
      · rw [hrun, hs] at ht; cases ht
    · rfl

/-- The instruction of a successful step costs at least one cycle, and at least two for a byte of the table (R16). -/
theorem minCycles_of_fetchInstr {cfg : Config} {i : Instr} (hcfg : cfg.wf = true) (h : fetchInstr cfg s = some i) :
    1 ≤ i.minCycles ∧ (s.memRead s.pc ∉ undefinedOpcodes → 2 ≤ i.minCycles) := by
  cases hd : decode cfg s.fetchWindow with
  | ok r =>
    simp only [fetchInstr, hd] at h
    cases h
    exact minCycles_of_decode hcfg hd
  | error e => simp [fetchInstr, hd] at h

end

/-- Settles O19: the counter starts at 0, a step adds what it returns, and `exec` commutes with raising the counter. -/
theorem cycleCounterGrowsAndIsNeverRead : Obligations.CycleCounterGrowsAndIsNeverRead := by
  refine ⟨fun _ _ _ => rfl, fun cfg s t c hcfg h => ?_, fun _ _ _ _ => stepReturn_err_cycle, fun i s t k h => ?_⟩
  · obtain ⟨i, hi, hcyc, hmin⟩ := stepReturn_ok h
    obtain ⟨hone, htwo⟩ := minCycles_of_fetchInstr hcfg hi
    exact ⟨hcyc, hone.trans hmin, fun hop => (htwo hop).trans hmin⟩
  · have hk := (exec_meaning i).addCycles s k
    rw [h] at hk
    exact hk

end Sys2Proof.Machine
end

section
/-! PROOFS. The family `20_memory.md`: memory is plain storage (R21). Canonical memories with equal reads are equal, so
every equation between written memories is one between their reads. -/

namespace Sys2Proof.Machine

/-! ### The head of a canonical memory -/

theorem Memory.wf_cons {b : Nat} {w : Byte} {m : Memory} :
    Memory.wf ((b, w) :: m) = true ↔
      w ≠ Config.unlistedByte ∧ Memory.above b m = true ∧ m.wf = true := by
  simp [Memory.wf, and_assoc]

@[simp] theorem Memory.read_head (b : Nat) (w : Byte) (m : Memory) : Memory.read ((b, w) :: m) b = w := by
  simp [Memory.read]

/-- What reads as a listed byte is listed, so it is not below the first address. -/
theorem Memory.head_le_of_read_ne {a b : Nat} {w : Byte} {m : Memory} (hm : Memory.above b m = true)
    (h : Memory.read ((b, w) :: m) a ≠ Config.unlistedByte) : b ≤ a := by
  by_contra hba
  have hab : a < b := Nat.lt_of_not_le hba
  have habove : Memory.above a ((b, w) :: m) = true := by
    simp [Memory.above, hab, Memory.above_mono hm (Nat.le_of_lt hab)]
  exact h (Memory.read_of_above habove (Nat.le_refl a))

/-- The tail reads as the whole, except at the head's own address, which it does not list again. -/
theorem Memory.read_tail {b : Nat} {w : Byte} {m : Memory} (hm : Memory.above b m = true) (a : Nat) :
    m.read a = if a = b then Config.unlistedByte else Memory.read ((b, w) :: m) a := by
  split
  · next h => exact Memory.read_of_above hm (Nat.le_of_eq h)
  · next h => rw [Memory.read, if_neg (Ne.symm h)]

/-- Canonical memories that read the same everywhere are the same list (log 16). -/
theorem Memory.eq_of_read {m n : Memory} (hm : m.wf = true) (hn : n.wf = true)
    (h : ∀ a, m.read a = n.read a) : m = n := by
  induction m generalizing n with
  | nil =>
    cases n with
    | nil => rfl
    | cons f n => exact absurd ((Memory.read_head f.1 f.2 n).symm.trans (h f.1).symm) (Memory.wf_cons.mp hn).1
  | cons e m ih =>
    obtain ⟨b, v⟩ := e
    obtain ⟨hv, hbm, hmwf⟩ := Memory.wf_cons.mp hm
    cases n with
    | nil => exact absurd ((Memory.read_head b v m).symm.trans (h b)) hv
    | cons f n =>
      obtain ⟨c, w⟩ := f
      obtain ⟨hw, hcn, hnwf⟩ := Memory.wf_cons.mp hn
      have hbc : b = c := Nat.le_antisymm
        (Memory.head_le_of_read_ne hbm (by rwa [h c, Memory.read_head]))
        (Memory.head_le_of_read_ne hcn (by rwa [← h b, Memory.read_head]))
      subst hbc
      have hvw : v = w := by simpa using h b
      have htail : m = n := ih hmwf hnwf fun a => by
        rw [Memory.read_tail (w := v) hbm, Memory.read_tail (w := w) hcn, h a]
      rw [hvw, htail]

/-! ### Writes to one address -/

/-- A later write to an address replaces the earlier. -/
theorem Memory.write_write {m : Memory} (a : Nat) (v w : Byte) (h : m.wf = true) :
    (m.write a v).write a w = m.write a w := by
  have hv := Memory.write_wf a v h
  refine Memory.eq_of_read (Memory.write_wf a w hv) (Memory.write_wf a w h) fun c => ?_
  by_cases hc : c = a
  · rw [hc, Memory.read_write_same a w hv, Memory.read_write_same a w h]
  · rw [Memory.read_write_ne w hc, Memory.read_write_ne v hc, Memory.read_write_ne w hc]

/-- Writing back what an address holds changes nothing. -/
theorem Memory.write_read {m : Memory} (a : Nat) (h : m.wf = true) : m.write a (m.read a) = m := by
  refine Memory.eq_of_read (Memory.write_wf a _ h) h fun c => ?_
  by_cases hc : c = a
  · rw [hc, Memory.read_write_same a _ h]
  · rw [Memory.read_write_ne _ hc]

@[simp] theorem State.memWrite_memWrite (s : State) (a : Addr) (v w : Byte) (h : s.memory.wf = true) :
    (s.memWrite a v).memWrite a w = s.memWrite a w := by
  simp [State.memWrite, Memory.write_write _ v w h]

@[simp] theorem State.memWrite_memRead (s : State) (a : Addr) (h : s.memory.wf = true) :
    s.memWrite a (s.memRead a) = s := by
  simp [State.memWrite, State.memRead, Memory.write_read _ h]

/-- Settles O28: by the laws of a read after a write, of a write after a write and of writing back what was read. -/
theorem memoryIsPlainStorage : Obligations.MemoryIsPlainStorage :=
  fun s a v w h =>
    ⟨s.memRead_memWrite_same a v h, fun _ hb => s.memRead_memWrite_ne v hb, rfl,
      s.memWrite_memWrite a v v h, s.memWrite_memRead a h, s.memWrite_memWrite a v w h, fun _ _ _ => rfl⟩

end Sys2Proof.Machine
end

section
/-! PROOFS. The family `30_encoding.md`: the rows that `ILLEGAL_NOPS` adds (R38). -/

namespace Sys2Proof

/-- What R38 asks of `ILLEGAL_NOPS`, entry by entry. -/
theorem Config.wf_iff {cfg : Config} :
    cfg.wf = true ↔
      (∀ e ∈ cfg.illegalNops, e.1 ∈ undefinedOpcodes ∧ 1 ≤ e.2) ∧ (cfg.illegalNops.map Prod.fst).Nodup := by
  simp [Config.wf]

/-- The bytes R37 lists have no row. -/
theorem lookup_of_mem_undefinedOpcodes : ∀ op ∈ undefinedOpcodes, lookup op = none := by
  decide +kernel

/-- No byte is listed twice, so the entry that decode finds is the one listed. -/
theorem illegalNop_of_mem {cfg : Config} {e : Byte × Nat} (hcfg : cfg.wf = true) (he : e ∈ cfg.illegalNops) :
    illegalNop cfg e.1 = some e := by
  obtain ⟨-, hnodup⟩ := Config.wf_iff.mp hcfg
  cases hfind : illegalNop cfg e.1 with
  | none =>
    have hne := List.find?_eq_none.mp hfind e he
    simp at hne
  | some found =>
    have hkey : found.1 = e.1 := by simpa using List.find?_some hfind
    rw [List.inj_on_of_nodup_map hnodup (List.mem_of_find?_eq_some hfind) he hkey]

/-- Decoding a byte of `ILLEGAL_NOPS` (R38, R132). -/
theorem decode_of_mem_illegalNops {cfg : Config} {op : Byte} {cyc : Nat} (rest : List Byte) (hcfg : cfg.wf = true)
    (h : (op, cyc) ∈ cfg.illegalNops) : decode cfg (op :: rest) = .ok (.nopIllegal op cyc, rest) := by
  obtain ⟨hentries, -⟩ := Config.wf_iff.mp hcfg
  have hrow : lookup op = none := lookup_of_mem_undefinedOpcodes op (hentries _ h).1
  have hentry : illegalNop cfg op = some (op, cyc) := illegalNop_of_mem hcfg h
  simp [decode_of_no_row rest hrow, hentry]

namespace Machine

theorem fetchInstr_of_decode {cfg : Config} {s : State} {i : Instr} {rest : List Byte}
    (h : decode cfg s.fetchWindow = .ok (i, rest)) : fetchInstr cfg s = some i := by
  simp [fetchInstr, h]

theorem stepWith_of_fetchInstr {cfg : Config} {s : State} {i : Instr} (hs : s.run = .fetch)
    (h : fetchInstr cfg s = some i) : stepWith cfg s = exec i s := by
  simp [stepWith, hs, h]

/-- Settles O6: decode finds the byte's own entry, since the byte has no row and is listed once. -/
theorem illegalNopChargesItsEntry : Obligations.IllegalNopChargesItsEntry := by
  refine ⟨rfl, fun cfg s cyc hcfg hs hmem => ?_⟩
  obtain ⟨hentries, -⟩ := Config.wf_iff.mp hcfg
  obtain ⟨hundef, hcost⟩ := hentries _ hmem
  have hfetch : fetchInstr cfg s = some (.nopIllegal (s.memRead s.pc) cyc) :=
    fetchInstr_of_decode (decode_of_mem_illegalNops _ hcfg hmem)
  exact ⟨stepWith_of_fetchInstr hs hfetch, rfl, hcost, hundef⟩

end Machine
end Sys2Proof
end

section
/-! PROOFS. The family `40_flag_algebra.md`: the flag helpers bit by bit (R42 to R49). -/

namespace Sys2Proof.Machine

/-- Settles O31: each helper is `assign` (R51) of its own flag at its own value. -/
theorem flagHelpersWriteOneBit : Obligations.FlagHelpersWriteOneBit := by
  intro p
  simp only [List.forall_mem_cons]
  exact ⟨assign_getLsbD p .C true, assign_getLsbD p .C false,
    assign_getLsbD p .Z true, assign_getLsbD p .Z false,
    assign_getLsbD p .V true, assign_getLsbD p .V false,
    assign_getLsbD p .N true, assign_getLsbD p .N false, List.forall_mem_nil _⟩

end Sys2Proof.Machine
end

section
/-! PROOFS. The family `41_addressing_modes.md`: the effective address and the page-crossed bit of the eight memory modes in
number arithmetic (R56 to R63). -/

namespace Sys2Proof.Machine

/-! ### Zero-extended bytes -/

@[simp] theorem zext16_toNat (b : Byte) : (zext16 b).toNat = b.toNat :=
  BitVec.toNat_setWidth_of_le (by decide)

/-- Zero-extending a byte that is `n` modulo 256 names the address `n mod 256` of page 0. -/
theorem zext16_eq_ofNat {z : Byte} {n : Nat} (h : z.toNat = n % 256) : zext16 z = BitVec.ofNat 16 (n % 256) := by
  rw [← h, BitVec.ofNat_toNat, zext16]

/-- An index register moves a zero-page address modulo 256 (R57, R58). -/
theorem zext16_add_toNat (b x : Byte) : (zext16 (b + x)).toNat = (b.toNat + x.toNat) % 256 := by
  rw [zext16_toNat, BitVec.toNat_add]

/-- An index register moves a word modulo 65536 (R60, R61, R63). -/
theorem add_zext16_toNat (w : Addr) (x : Byte) : (w + zext16 x).toNat = (w.toNat + x.toNat) % 65536 := by
  rw [BitVec.toNat_add, zext16_toNat]

/-- The pointer is read in page 0: the address of its high byte wraps modulo 256 (R62, R63). -/
theorem State.zeroPageWord_toNat (s : State) {z : Byte} {n : Nat} (h : z.toNat = n % 256) :
    (s.zeroPageWord z).toNat =
      256 * (s.memRead (BitVec.ofNat 16 ((n + 1) % 256))).toNat + (s.memRead (BitVec.ofNat 16 (n % 256))).toNat := by
  have hnext : (z + 1).toNat = (n + 1) % 256 := by rw [BitVec.toNat_add, h]; exact Nat.mod_add_mod n 256 1
  rw [State.zeroPageWord, wordOf_toNat, zext16_eq_ofNat h, zext16_eq_ofNat hnext]

/-! ### The page-crossed bit -/

theorem MemOperand.crossed_of_no_base {s : State} {m : MemOperand} (h : m.base? s = none) : m.crossed s = false := by
  rw [MemOperand.crossed, h]

/-- A mode with a base crosses exactly when the base and the effective address are in different pages (R54). -/
theorem MemOperand.crossed_iff_of_base {s : State} {m : MemOperand} {base : Addr} (h : m.base? s = some base) :
    m.crossed s = true ↔ base.toNat / 256 ≠ (m.ea s).toNat / 256 := by
  simp only [MemOperand.crossed, h, bne_iff_ne, ne_eq, ← BitVec.toNat_inj, hi_toNat]

/-! ### The rows of the dispatch table -/

/-- Only LDX and STX have Zero Page,Y (R58). -/
theorem mnemonic_of_zeroPageY :
    ∀ row ∈ dispatchTable, row.mode = .zeroPageY → row.mnemonic = "LDX" ∨ row.mnemonic = "STX" := by
  decide +kernel

/-- Only the indexed modes with a base have a page-cross cycle (R68). -/
theorem mode_of_pageCross :
    ∀ row ∈ dispatchTable, row.extra = .pageCross →
      row.mode = .absoluteX ∨ row.mode = .absoluteY ∨ row.mode = .indirectY := by
  decide +kernel

/-- Settles O32, mode by mode: the address by the sum or the pointer of its rule, the crossed bit by the mode's base. -/
theorem effectiveAddressesWrapAsTheirModesSay : Obligations.EffectiveAddressesWrapAsTheirModesSay := by
  refine ⟨fun row hrow => ⟨mnemonic_of_zeroPageY row hrow, mode_of_pageCross row hrow⟩, fun s op b h l => ?_⟩
  have hb : b.toNat = b.toNat % 256 := (Nat.mod_eq_of_lt b.isLt).symm
  have hword := wordOf_toNat h l
  have hptr := s.zeroPageWord_toNat hb
  dsimp only
  refine ⟨?zeroPage, ?zeroPageX, ?zeroPageY, ?absolute, ?absoluteX, ?absoluteY, ?indirectX, ?indirectY⟩
  case zeroPage => exact ⟨⟨zext16_toNat b, rfl, rfl⟩, MemOperand.crossed_of_no_base rfl⟩
  case zeroPageX => exact ⟨⟨zext16_add_toNat b s.X, rfl, rfl⟩, MemOperand.crossed_of_no_base rfl⟩
  case zeroPageY => exact ⟨⟨zext16_add_toNat b s.Y, rfl, rfl⟩, MemOperand.crossed_of_no_base rfl⟩
  case absolute => exact ⟨⟨hword, rfl, rfl⟩, MemOperand.crossed_of_no_base rfl⟩
  case absoluteX =>
    rw [← hword]
    exact ⟨⟨add_zext16_toNat _ s.X, rfl, rfl⟩, MemOperand.crossed_iff_of_base rfl⟩
  case absoluteY =>
    rw [← hword]
    exact ⟨⟨add_zext16_toNat _ s.Y, rfl, rfl⟩, MemOperand.crossed_iff_of_base rfl⟩
  case indirectX =>
    exact ⟨⟨s.zeroPageWord_toNat (BitVec.toNat_add b s.X), rfl, rfl⟩, MemOperand.crossed_of_no_base rfl⟩
  case indirectY =>
    rw [← hptr]
    exact ⟨⟨add_zext16_toNat _ s.Y, rfl, rfl⟩, MemOperand.crossed_iff_of_base rfl⟩

end Sys2Proof.Machine
end

section
/-! PROOFS. The forms that read an operand: what their completion (`Completes`) asks, reduced once to the rule's effect. -/

namespace Sys2Proof.Machine

open Claims

/-- A rule that reads an operand leaves to the common ending what that ending writes (R135, R136), and `run`. -/
theorem ReadEffect.keeps_control {e : State → Byte → State} (h : ReadEffect e) (s : State) (v : Byte) :
    (e s v).pc = s.pc ∧ (e s v).cycle = s.cycle ∧ (e s v).run = s.run := by
  cases h <;> exact ⟨rfl, rfl, rfl⟩

/-- The form's bytes decode to its instruction, which `exec` runs as the rule `e` on the form's operand, at the form's
cost; the operand says how many bytes there are. -/
structure ReadForm (e : State → Byte → State) (f : InstrForm Operand) : Prop where
  encoded : f.Encoded
  length_eq : f.operand.length = f.bytes.length
  exec_eq : ∀ s, exec f.instr s = readInstr e f.operand f.cycles f.extra s

/-- The page-cross cycle that the shapes charge is the one of R68 that the statements ask for. -/
theorem pageCrossCycle_eq_crossCycle (extra : Extra) (crossed : Bool) :
    pageCrossCycle extra crossed = crossCycle extra crossed := rfl

/-- A form that reads an operand completes, with the page-cross cycle of its row (R68), and leaves what its rule's effect
leaves after the common ending. -/
theorem ReadForm.completes {e : State → Byte → State} {f : InstrForm Operand} {s : State} {post : State → Prop}
    (hf : ReadForm e f) (he : ReadEffect e)
    (hpost : ∀ len cost, post ((e s (f.operand.value s)).advance len cost)) :
    Completes s f (crossCycle f.extra (f.operand.crossed s)) post := by
  obtain ⟨hpc, hcycle, hrun⟩ := he.keeps_control s (f.operand.value s)
  refine ⟨hf.encoded, _, hf.exec_eq s, ?pc, ?cycle, hrun, hpost _ _⟩
  case pc => rw [State.advance_pc, hpc, hf.length_eq]
  case cycle => rw [State.advance_cycle, hcycle, pageCrossCycle_eq_crossCycle, Nat.add_assoc]

end Sys2Proof.Machine
end

section
/-! PROOFS. The family `42_arithmetic.md`: ADC in number arithmetic (R70), and SBC as ADC of the operand's complement (R71). -/

namespace Sys2Proof.Machine

open Claims

/-! ### The carry -/

theorem carryIn_eq_carryNat (s : State) : carryIn s.P = carryNat s := carryIn_eq s.P

theorem carryNat_le_one (s : State) : carryNat s ≤ 1 := by
  rw [carryNat]; split <;> omega

/-! ### Signed bytes -/

theorem byte_getLsbD_seven (a : Byte) : a.getLsbD 7 = decide (128 ≤ a.toNat) :=
  BitVec.msb_eq_decide a

/-- The formula of `P.V` in R70 says that the signed sum is outside -128..127. -/
theorem adcOverflow_adcResult_iff (a v : Byte) {c : Nat} (hc : c ≤ 1) :
    adcOverflow a v (adcResult a v c) = true ↔
      a.toInt + v.toInt + c < -128 ∨ a.toInt + v.toInt + c > 127 := by
  have ha := a.isLt
  have hv := v.isLt
  simp only [adcOverflow_iff, byte_getLsbD_seven, adcResult_toNat, BitVec.toInt_eq_toNat_cond, ne_eq, decide_eq_decide]
  split <;> split <;> omega

/-! ### ADC -/

theorem State.adc_A_toNat (s : State) (v : Byte) :
    (s.adc v).A.toNat = (s.A.toNat + v.toNat + carryNat s) % 256 := by
  rw [← carryIn_eq_carryNat]; exact adcResult_toNat _ _ _

theorem State.adc_carry_iff (s : State) (v : Byte) :
    flagBit (s.adc v) 0 = true ↔ s.A.toNat + v.toNat + carryNat s > 255 := by
  have h : flagBit (s.adc v) 0 = decide (adcSum s.A v (carryIn s.P) > 255) := adcFlags_getLsbD _ _ _ 0 (by decide)
  rw [h, decide_eq_true_iff, carryIn_eq_carryNat, adcSum]

theorem State.adc_overflow_iff (s : State) (v : Byte) :
    flagBit (s.adc v) 6 = true ↔
      s.A.toInt + v.toInt + carryNat s < -128 ∨ s.A.toInt + v.toInt + carryNat s > 127 := by
  have h : flagBit (s.adc v) 6 = adcOverflow s.A v (adcResult s.A v (carryIn s.P)) :=
    adcFlags_getLsbD _ _ _ 6 (by decide)
  rw [h, carryIn_eq_carryNat]
  exact adcOverflow_adcResult_iff s.A v (carryNat_le_one s)

theorem State.adc_ZNFrom (s : State) (v : Byte) : ZNFrom (s.adc v).A (s.adc v) := by
  have hZ : flagBit (s.adc v) 1 = ((s.adc v).A == 0) := adcFlags_getLsbD _ _ _ 1 (by decide)
  have hN : flagBit (s.adc v) 7 = (s.adc v).A.getLsbD 7 := adcFlags_getLsbD _ _ _ 7 (by decide)
  exact ⟨by rw [hZ, beq_iff_eq], hN⟩

/-- I, D and B are kept, bit 5 is set (R70, R11). -/
theorem State.adc_keepsFlags (s : State) (v : Byte) : KeepsFlags [2, 3, 4] s (s.adc v) := by
  simp only [KeepsFlags, List.forall_mem_cons]
  exact ⟨⟨adcFlags_getLsbD _ _ _ 2 (by decide), adcFlags_getLsbD _ _ _ 3 (by decide),
    adcFlags_getLsbD _ _ _ 4 (by decide), List.forall_mem_nil _⟩, adcFlags_getLsbD _ _ _ 5 (by decide)⟩

theorem readForm_adc (b h l : Byte) : ∀ f ∈ adcForms b h l, ReadForm State.adc f := by
  simp only [adcForms, List.forall_mem_cons]
  refine ⟨?_, ?_, ?_, ?_, ?_, ?_, ?_, ?_, List.forall_mem_nil _⟩ <;> exact ⟨fun _ _ => rfl, rfl, fun _ => rfl⟩

/-- Settles O33: each form runs ADC's rule on its operand, and the rule is the sum of R70 in number arithmetic. -/
theorem adcAddsWithCarry : Obligations.AdcAddsWithCarry := by
  intro b h l s f hf
  refine (readForm_adc b h l f hf).completes .adc fun _ _ => ?_
  exact ⟨s.adc_A_toNat _, s.adc_carry_iff _, s.adc_overflow_iff _, s.adc_ZNFrom _, s.adc_keepsFlags _,
    ⟨rfl, rfl, rfl, fun _ => rfl⟩, fun _ => rfl⟩

/-! ### SBC: adding the complement and the carry subtracts the operand and the borrow -/

theorem complement_toNat (v : Byte) : (v ^^^ 0xFF).toNat = 255 - v.toNat := by
  rw [show v ^^^ 0xFF = ~~~v from BitVec.xor_allOnes, BitVec.toNat_not]

theorem complement_toInt (v : Byte) : (v ^^^ 0xFF).toInt = -1 - v.toInt := by
  have hv := v.isLt
  simp only [BitVec.toInt_eq_toNat_cond, complement_toNat]
  split <;> split <;> omega

theorem State.sbc_A_toNat (s : State) (v : Byte) :
    ((s.sbc v).A.toNat : Int) = ((s.A.toNat : Int) - v.toNat - (1 - carryNat s)) % 256 := by
  have hv := v.isLt
  rw [State.sbc, State.adc_A_toNat, complement_toNat]
  omega

/-- No borrow is a carry out of the sum with the complement (R71). -/
theorem State.sbc_carry_iff (s : State) (v : Byte) :
    flagBit (s.sbc v) 0 = true ↔ s.A.toNat ≥ v.toNat + (1 - carryNat s) := by
  have hv := v.isLt
  have hc := carryNat_le_one s
  rw [State.sbc, State.adc_carry_iff, complement_toNat]
  omega

theorem State.sbc_overflow_iff (s : State) (v : Byte) :
    flagBit (s.sbc v) 6 = true ↔
      s.A.toInt - v.toInt - (1 - carryNat s) < -128 ∨ s.A.toInt - v.toInt - (1 - carryNat s) > 127 := by
  rw [State.sbc, State.adc_overflow_iff, complement_toInt]
  omega

theorem readForm_sbc (b h l : Byte) : ∀ f ∈ sbcForms b h l, ReadForm State.sbc f := by
  simp only [sbcForms, List.forall_mem_cons]
  refine ⟨?_, ?_, ?_, ?_, ?_, ?_, ?_, ?_, List.forall_mem_nil _⟩ <;> exact ⟨fun _ _ => rfl, rfl, fun _ => rfl⟩

/-- Settles O34: each form runs SBC's rule on its operand; Z, N and what is kept are ADC's for the complement. -/
theorem sbcSubtractsWithBorrow : Obligations.SbcSubtractsWithBorrow := by
  intro b h l s f hf
  refine (readForm_sbc b h l f hf).completes .sbc fun _ _ => ?_
  exact ⟨s.sbc_A_toNat _, s.sbc_carry_iff _, s.sbc_overflow_iff _, s.adc_ZNFrom _, s.adc_keepsFlags _,
    ⟨rfl, rfl, rfl, fun _ => rfl⟩, fun _ => rfl⟩

end Sys2Proof.Machine
end

section
/-! PROOFS. The family `43_logical_bit.md`: AND, ORA and EOR bit by bit (R73 to R75), and BIT (R76). -/

namespace Sys2Proof.Machine

open Claims

/-! ### The status byte after `setZN` (R52) -/

theorem ZNFrom_of_setZN {t : State} {p r : Byte} (h : t.P = setZN p r) : ZNFrom r t := by
  have hZ : flagBit t 1 = (r == 0) := by rw [flagBit, h]; exact setZN_getLsbD p r 1 (by decide)
  have hN : flagBit t 7 = r.getLsbD 7 := by rw [flagBit, h]; exact setZN_getLsbD p r 7 (by decide)
  exact ⟨by rw [hZ, beq_iff_eq], hN⟩

/-- `setZN` writes Z and N and sets bit 5 (R11). -/
theorem keepsFlags_of_setZN {s t : State} {r : Byte} (h : t.P = setZN s.P r) : KeepsFlags [0, 2, 3, 4, 6] s t := by
  simp only [KeepsFlags, flagBit, h, List.forall_mem_cons]
  exact ⟨⟨setZN_getLsbD _ _ 0 (by decide), setZN_getLsbD _ _ 2 (by decide), setZN_getLsbD _ _ 3 (by decide),
    setZN_getLsbD _ _ 4 (by decide), setZN_getLsbD _ _ 6 (by decide), List.forall_mem_nil _⟩, setZN_bit5 _ _⟩

/-! ### AND, ORA, EOR -/

/-- What a rule that ends by loading `A` leaves after the common ending: Z and N from `A`, everything else as before. -/
theorem State.loadA_advance_frame (s : State) (r : Byte) (len cost : Nat) :
    let t := (s.loadA r).advance len cost
    ZNFrom t.A t ∧ KeepsFlags [0, 2, 3, 4, 6] s t ∧ KeepsIndexes s t ∧ KeepsMemory s t :=
  ⟨ZNFrom_of_setZN rfl, keepsFlags_of_setZN rfl, ⟨rfl, rfl, rfl, fun _ => rfl⟩, fun _ => rfl⟩

theorem readForm_logic (b h l : Byte) :
    (∀ f ∈ andForms b h l, ReadForm State.andA f) ∧ (∀ f ∈ oraForms b h l, ReadForm State.orA f) ∧
      ∀ f ∈ eorForms b h l, ReadForm State.eorA f := by
  simp only [andForms, oraForms, eorForms, List.forall_mem_cons]
  refine ⟨?and, ?ora, ?eor⟩ <;> refine ⟨?_, ?_, ?_, ?_, ?_, ?_, ?_, ?_, List.forall_mem_nil _⟩ <;>
    exact ⟨fun _ _ => rfl, rfl, fun _ => rfl⟩

/-- Settles O35: each rule loads `A` with the bitwise operation of `A` and the operand. -/
theorem logicWorksBitByBit : Obligations.LogicWorksBitByBit := by
  intro b h l s
  obtain ⟨hand, hora, heor⟩ := readForm_logic b h l
  simp only [List.forall_mem_cons]
  refine ⟨?and, ?ora, ?eor, List.forall_mem_nil _⟩
  case and =>
    exact fun f hf => (hand f hf).completes .and fun len cost =>
      ⟨fun _ _ => BitVec.getLsbD_and, s.loadA_advance_frame _ len cost⟩
  case ora =>
    exact fun f hf => (hora f hf).completes .ora fun len cost =>
      ⟨fun _ _ => BitVec.getLsbD_or, s.loadA_advance_frame _ len cost⟩
  case eor =>
    exact fun f hf => (heor f hf).completes .eor fun len cost =>
      ⟨fun _ _ => BitVec.getLsbD_xor, s.loadA_advance_frame _ len cost⟩

/-! ### BIT -/

/-- A form whose row has no mark in the `+` column costs its base cycles (R68). -/
theorem ReadForm.completes_of_no_extra {e : State → Byte → State} {f : InstrForm Operand} {s : State}
    {post : State → Prop} (hf : ReadForm e f) (he : ReadEffect e) (hx : f.extra = .none)
    (hpost : ∀ len cost, post ((e s (f.operand.value s)).advance len cost)) : Completes s f 0 post := by
  have hmore : crossCycle f.extra (f.operand.crossed s) = 0 := by simp [crossCycle, hx]
  exact hmore ▸ hf.completes he hpost

theorem readForm_bit (b h l : Byte) : ∀ f ∈ bitForms b h l, ReadForm State.bitTest f := by
  simp only [bitForms, List.forall_mem_cons]
  refine ⟨?_, ?_, List.forall_mem_nil _⟩ <;> exact ⟨fun _ _ => rfl, rfl, fun _ => rfl⟩

theorem bitForms_extra (b h l : Byte) : ∀ f ∈ bitForms b h l, f.extra = .none := by
  simp [bitForms]

theorem and_eq_zero_iff_no_common_bit (a v : Byte) :
    a &&& v = 0 ↔ ∀ k : Nat, k < 8 → ¬(a.getLsbD k = true ∧ v.getLsbD k = true) := by
  simp [BitVec.eq_of_getLsbD_eq_iff]

theorem State.bitTest_zero_iff (s : State) (v : Byte) :
    flagBit (s.bitTest v) 1 = true ↔ ∀ k : Nat, k < 8 → ¬(s.A.getLsbD k = true ∧ v.getLsbD k = true) := by
  have h : flagBit (s.bitTest v) 1 = ((s.A &&& v) == 0) := bitFlags_getLsbD _ _ _ 1 (by decide)
  rw [h, beq_iff_eq, and_eq_zero_iff_no_common_bit]

theorem State.bitTest_keepsFlags (s : State) (v : Byte) : KeepsFlags [0, 2, 3, 4] s (s.bitTest v) := by
  simp only [KeepsFlags, List.forall_mem_cons]
  exact ⟨⟨bitFlags_getLsbD _ _ _ 0 (by decide), bitFlags_getLsbD _ _ _ 2 (by decide),
    bitFlags_getLsbD _ _ _ 3 (by decide), bitFlags_getLsbD _ _ _ 4 (by decide), List.forall_mem_nil _⟩,
    bitFlags_getLsbD _ _ _ 5 (by decide)⟩

/-- Settles O36: both forms write `P` alone, and V and N are bits 6 and 7 of the operand itself. -/
theorem bitTestsTheOperand : Obligations.BitTestsTheOperand := by
  intro b h l s f hf
  refine (readForm_bit b h l f hf).completes_of_no_extra .bit (bitForms_extra b h l f hf) fun _ _ => ?_
  exact ⟨s.bitTest_zero_iff _, bitFlags_getLsbD _ _ _ 6 (by decide), bitFlags_getLsbD _ _ _ 7 (by decide),
    s.bitTest_keepsFlags _, rfl, ⟨rfl, rfl, rfl, fun _ => rfl⟩, fun _ => rfl⟩

end Sys2Proof.Machine
end

section
/-! PROOFS. The forms that change a place (R81): what their completion (`Completes`) asks, reduced once to the rule's result and
status byte. -/

namespace Sys2Proof.Machine

open Claims

@[simp] theorem Place.writeback_pc (s : State) (pl : Place) (r : Byte) : (pl.writeback s r).pc = s.pc := by
  cases pl <;> rfl

theorem Place.writeback_keepsIndexes (s : State) (pl : Place) (r : Byte) : KeepsIndexes s (pl.writeback s r) := by
  cases pl <;> exact ⟨rfl, rfl, rfl, fun _ => rfl⟩

/-- The write back puts the result in the place and nowhere else (R54, R81). -/
theorem Place.writeback_placeHolds {s : State} (hwf : s.memory.wf = true) (pl : Place) (r : Byte) :
    PlaceHolds pl s (pl.writeback s r) r := by
  cases pl with
  | accumulator => exact ⟨rfl, fun _ => rfl⟩
  | memory m => exact ⟨s.memRead_memWrite_same _ r hwf, fun _ ha => s.memRead_memWrite_ne r ha, rfl⟩

/-- Neither the write of `P` nor the common ending writes what `PlaceHolds` speaks of. -/
theorem placeHolds_setP_advance {pl : Place} {s t : State} {r : Byte} (h : PlaceHolds pl s t r) (p : Byte)
    (len cost : Nat) : PlaceHolds pl s ((t.setP p).advance len cost) r := by
  cases pl <;> exact h

/-- The form's bytes decode to its instruction, which `exec` runs as the rule `g` on the form's place, at the form's
cost; the place says how many bytes there are. -/
structure ModifyForm (g : Byte → Byte → Byte × Byte) (f : InstrForm Place) : Prop where
  encoded : f.Encoded
  length_eq : f.operand.length = f.bytes.length
  exec_eq : ∀ s, exec f.instr s = modifyInstr g f.operand f.cycles s

/-- A form that changes a place completes at its base cost (R68): the place holds the rule's result, `P` is the rule's status
byte, and the other registers and the stack buffer are as before. -/
theorem ModifyForm.completes {g : Byte → Byte → Byte × Byte} {f : InstrForm Place} {s : State} {post : State → Prop}
    {r p : Byte} (hf : ModifyForm g f) (hwf : s.memory.wf = true) (hg : g (f.operand.value s) s.P = (r, p))
    (hpost : ∀ t, PlaceHolds f.operand s t r → t.P = p → KeepsIndexes s t → post t) : Completes s f 0 post := by
  have hexec : exec f.instr s = .next (((f.operand.writeback s r).setP p).advance f.operand.length f.cycles) := by
    rw [hf.exec_eq, modifyInstr_eq, hg]
  refine ⟨hf.encoded, _, hexec, ?pc, ?cycle, ?run, hpost _ ?place rfl ?indexes⟩
  case pc => simp [hf.length_eq]
  case cycle => simp
  case run => simp
  case place => exact placeHolds_setP_advance (f.operand.writeback_placeHolds hwf r) p _ _
  case indexes => exact f.operand.writeback_keepsIndexes s r

end Sys2Proof.Machine
end

section
/-! PROOFS. The family `44_shift_rotate.md`: ASL and LSR (R77, R78), ROL and ROR (R79, R80). -/

namespace Sys2Proof.Machine

open Claims

/-! ### The status byte of a shift or rotate -/

theorem flagBit_zero_of_shiftFlags {t : State} {p r : Byte} {out : Bool} (h : t.P = shiftFlags p r out) :
    flagBit t 0 = out := by
  rw [flagBit, h]; exact shiftFlags_getLsbD p r out 0 (by decide)

/-- C, Z and N are written, bit 5 is set (R77 to R80, R11). -/
theorem keepsFlags_of_shiftFlags {s t : State} {r : Byte} {out : Bool} (h : t.P = shiftFlags s.P r out) :
    KeepsFlags [2, 3, 4, 6] s t := by
  simp only [KeepsFlags, flagBit, h, List.forall_mem_cons]
  exact ⟨⟨shiftFlags_getLsbD _ _ _ 2 (by decide), shiftFlags_getLsbD _ _ _ 3 (by decide),
    shiftFlags_getLsbD _ _ _ 4 (by decide), shiftFlags_getLsbD _ _ _ 6 (by decide), List.forall_mem_nil _⟩,
    setZN_bit5 _ _⟩

/-- A form whose rule gives `r` and shifts out `out` completes with them in its place and in C. -/
theorem ModifyForm.completes_shift {g : Byte → Byte → Byte × Byte} {f : InstrForm Place} {s : State} {r : Byte} {n : Nat}
    {out : Bool} (hf : ModifyForm g f) (hwf : s.memory.wf = true)
    (hg : g (f.operand.value s) s.P = (r, shiftFlags s.P r out)) (hr : r.toNat = n) :
    Completes s f 0 fun t =>
      ∃ r : Byte, r.toNat = n ∧ PlaceHolds f.operand s t r ∧ flagBit t 0 = out ∧ ZNFrom r t ∧
        KeepsFlags [2, 3, 4, 6] s t ∧ KeepsIndexes s t :=
  hf.completes hwf hg fun _ hplace hP hindexes =>
    ⟨r, hr, hplace, flagBit_zero_of_shiftFlags hP, ZNFrom_of_setZN hP, keepsFlags_of_shiftFlags hP, hindexes⟩

/-! ### The results in number arithmetic -/

theorem byte_shiftLeft_one_toNat (v : Byte) : (v <<< 1).toNat = v.toNat * 2 % 256 := by
  rw [BitVec.toNat_shiftLeft, Nat.shiftLeft_eq]

theorem byte_shiftRight_one_toNat (v : Byte) : (v >>> 1).toNat = v.toNat / 2 := by
  rw [BitVec.toNat_ushiftRight, Nat.shiftRight_eq_div_pow]

/-- Bit 0 of the shifted byte is 0, so the carry that enters it is added (R79). -/
theorem shiftLeft_or_carry_toNat (v : Byte) {c : Nat} (hc : c ≤ 1) :
    (v <<< 1 ||| BitVec.ofNat 8 c).toNat = (v.toNat * 2 + c) % 256 := by
  have hdisjoint : v <<< 1 &&& BitVec.ofNat 8 c = 0 := by
    obtain rfl | rfl := Nat.le_one_iff_eq_zero_or_eq_one.mp hc
    · exact BitVec.and_zero
    · exact (BitVec.and_twoPow (v <<< 1) 0).trans (by simp)
  rw [← BitVec.add_eq_or_of_and_eq_zero _ _ hdisjoint, BitVec.toNat_add, byte_shiftLeft_one_toNat, BitVec.toNat_ofNat]
  omega

/-- Bit 7 of the shifted byte is 0, so the carry that enters it is added at its weight (R80). -/
theorem shiftRight_or_carry_toNat (v : Byte) {c : Nat} (hc : c ≤ 1) :
    (v >>> 1 ||| BitVec.ofNat 8 c <<< 7).toNat = v.toNat / 2 + 128 * c := by
  have hv := v.isLt
  have hdisjoint : v >>> 1 &&& BitVec.ofNat 8 c <<< 7 = 0 := by
    obtain rfl | rfl := Nat.le_one_iff_eq_zero_or_eq_one.mp hc
    · exact BitVec.and_zero
    · exact (BitVec.and_twoPow (v >>> 1) 7).trans (by simp)
  rw [← BitVec.add_eq_or_of_and_eq_zero _ _ hdisjoint, BitVec.toNat_add, byte_shiftRight_one_toNat,
    BitVec.toNat_shiftLeft, BitVec.toNat_ofNat, Nat.shiftLeft_eq]
  omega

/-! ### The forms -/

theorem modifyForm_shift (b h l : Byte) :
    (∀ f ∈ aslForms b h l, ModifyForm aslByte f) ∧ ∀ f ∈ lsrForms b h l, ModifyForm lsrByte f := by
  simp only [aslForms, lsrForms, List.forall_mem_cons]
  refine ⟨?asl, ?lsr⟩ <;> refine ⟨?_, ?_, ?_, ?_, ?_, List.forall_mem_nil _⟩ <;>
    exact ⟨fun _ _ => rfl, rfl, fun _ => rfl⟩

theorem modifyForm_rotate (b h l : Byte) :
    (∀ f ∈ rolForms b h l, ModifyForm rolByte f) ∧ ∀ f ∈ rorForms b h l, ModifyForm rorByte f := by
  simp only [rolForms, rorForms, List.forall_mem_cons]
  refine ⟨?rol, ?ror⟩ <;> refine ⟨?_, ?_, ?_, ?_, ?_, List.forall_mem_nil _⟩ <;>
    exact ⟨fun _ _ => rfl, rfl, fun _ => rfl⟩

/-- Settles O37: a shift by one doubles modulo 256 or halves, and the status byte takes the bit that left. -/
theorem shiftsMoveByOneBit : Obligations.ShiftsMoveByOneBit := by
  intro b h l s hwf
  obtain ⟨hasl, hlsr⟩ := modifyForm_shift b h l
  exact ⟨fun f hf => (hasl f hf).completes_shift hwf rfl (byte_shiftLeft_one_toNat _),
    fun f hf => (hlsr f hf).completes_shift hwf rfl (byte_shiftRight_one_toNat _)⟩

/-- Settles O38: the old carry enters the bit that the shift leaves 0, so it adds its weight to the shifted byte. -/
theorem rotatesPassThroughCarry : Obligations.RotatesPassThroughCarry := by
  intro b h l s hwf
  obtain ⟨hrol, hror⟩ := modifyForm_rotate b h l
  have hc := carryNat_le_one s
  rw [← carryIn_eq_carryNat] at hc ⊢
  exact ⟨fun f hf => (hrol f hf).completes_shift hwf rfl (shiftLeft_or_carry_toNat _ hc),
    fun f hf => (hror f hf).completes_shift hwf rfl (shiftRight_or_carry_toNat _ hc)⟩

end Sys2Proof.Machine
end

section
/-! PROOFS. The Implied forms that leave the stack buffer alone (R65): what their completion (`Completes`) asks, reduced once to
the rule's effect. -/

namespace Sys2Proof.Machine

open Claims

/-- A rule of an Implied instruction leaves to the common ending what that ending writes (R135, R136), and `run`. -/
theorem ImpliedEffect.keeps_control {e : State → State} (h : ImpliedEffect e) (s : State) :
    (e s).pc = s.pc ∧ (e s).cycle = s.cycle ∧ (e s).run = s.run := by
  cases h <;> exact ⟨rfl, rfl, rfl⟩

/-- A one-byte form that `exec` runs as an Implied rule completes, and leaves what the rule's effect leaves after the common
ending. -/
theorem ImpliedEffect.completes {e : State → State} {op : Byte} {i : Instr} {cycles : Nat} {s : State}
    {post : State → Prop} (he : ImpliedEffect e) (hencoded : (one op i cycles).Encoded)
    (hexec : exec i s = impliedInstr e cycles s) (hpost : ∀ len cost, post ((e s).advance len cost)) :
    Completes s (one op i cycles) 0 post := by
  obtain ⟨hpc, hcycle, hrun⟩ := he.keeps_control s
  refine ⟨hencoded, _, hexec, ?pc, ?cycle, hrun, hpost _ _⟩
  case pc => rw [State.advance_pc, hpc]; rfl
  case cycle => rw [State.advance_cycle, hcycle]; rfl

/-- What a rule that loads `X` leaves after the common ending: Z and N from `X`, everything else as before. -/
theorem State.loadX_advance_frame (s : State) (r : Byte) (len cost : Nat) :
    let t := (s.loadX r).advance len cost
    ZNFrom t.X t ∧ KeepsFlags [0, 2, 3, 4, 6] s t ∧ t.A = s.A ∧ t.Y = s.Y ∧ t.S = s.S ∧ KeepsStack s t ∧
      KeepsMemory s t :=
  ⟨ZNFrom_of_setZN rfl, keepsFlags_of_setZN rfl, rfl, rfl, rfl, fun _ => rfl, fun _ => rfl⟩

/-- What a rule that loads `Y` leaves after the common ending: Z and N from `Y`, everything else as before. -/
theorem State.loadY_advance_frame (s : State) (r : Byte) (len cost : Nat) :
    let t := (s.loadY r).advance len cost
    ZNFrom t.Y t ∧ KeepsFlags [0, 2, 3, 4, 6] s t ∧ t.A = s.A ∧ t.X = s.X ∧ t.S = s.S ∧ KeepsStack s t ∧
      KeepsMemory s t :=
  ⟨ZNFrom_of_setZN rfl, keepsFlags_of_setZN rfl, rfl, rfl, rfl, fun _ => rfl, fun _ => rfl⟩

end Sys2Proof.Machine
end

section
/-! PROOFS. The family `45_compare_incdec.md`: CMP, CPX and CPY (R82 to R84), DEC and INC in memory (R85, R86), DEX, DEY, INX and
INY (R87 to R90). -/

namespace Sys2Proof.Machine

open Claims

/-! ### The status byte of `compare` -/

/-- C, Z and N of `compare` in number arithmetic: N is "register below operand", not the sign of a difference. -/
theorem flagBits_of_compareFlags {t : State} {p r v : Byte} (h : t.P = compareFlags p r v) :
    (flagBit t 0 = true ↔ r.toNat ≥ v.toNat) ∧ (flagBit t 1 = true ↔ r.toNat = v.toNat) ∧
      (flagBit t 7 = true ↔ r.toNat < v.toNat) := by
  have hC : flagBit t 0 = decide (r.toNat ≥ v.toNat) := by
    rw [flagBit, h]; exact compareFlags_getLsbD p r v 0 (by decide)
  have hZ : flagBit t 1 = (r == v) := by
    rw [flagBit, h]; exact compareFlags_getLsbD p r v 1 (by decide)
  have hN : flagBit t 7 = decide (r.toNat < v.toNat) := by
    rw [flagBit, h]; exact compareFlags_getLsbD p r v 7 (by decide)
  rw [hC, hZ, hN, beq_iff_eq, decide_eq_true_iff, decide_eq_true_iff, BitVec.toNat_inj]
  exact ⟨.rfl, .rfl, .rfl⟩

/-- `compare` writes C, Z and N and sets bit 5 (R11). -/
theorem keepsFlags_of_compareFlags {s t : State} {r v : Byte} (h : t.P = compareFlags s.P r v) :
    KeepsFlags [2, 3, 4, 6] s t := by
  simp only [KeepsFlags, flagBit, h, List.forall_mem_cons]
  exact ⟨⟨compareFlags_getLsbD _ _ _ 2 (by decide), compareFlags_getLsbD _ _ _ 3 (by decide),
    compareFlags_getLsbD _ _ _ 4 (by decide), compareFlags_getLsbD _ _ _ 6 (by decide), List.forall_mem_nil _⟩,
    compareFlags_getLsbD _ _ _ 5 (by decide)⟩

/-! ### CMP, CPX, CPY -/

/-- A form whose rule is `compare` of the register byte `r` completes with the comparison in C, Z and N, and writes `P` alone. -/
theorem ReadForm.completes_compare {e : State → Byte → State} {f : InstrForm Operand} {s : State} {r : Byte}
    (hf : ReadForm e f) (he : ReadEffect e) (hrule : ∀ v, e s v = s.setP (compareFlags s.P r v)) :
    Completes s f (crossCycle f.extra (f.operand.crossed s)) fun t =>
      let v := f.operand.value s
      (flagBit t 0 = true ↔ r.toNat ≥ v.toNat) ∧ (flagBit t 1 = true ↔ r.toNat = v.toNat) ∧
      (flagBit t 7 = true ↔ r.toNat < v.toNat) ∧ KeepsFlags [2, 3, 4, 6] s t ∧
      t.A = s.A ∧ KeepsIndexes s t ∧ KeepsMemory s t := by
  refine hf.completes he fun len cost => ?_
  rw [hrule]
  obtain ⟨hC, hZ, hN⟩ := flagBits_of_compareFlags
    (t := (s.setP (compareFlags s.P r (f.operand.value s))).advance len cost) rfl
  exact ⟨hC, hZ, hN, keepsFlags_of_compareFlags rfl, rfl, ⟨rfl, rfl, rfl, fun _ => rfl⟩, fun _ => rfl⟩

theorem readForm_cmp (b h l : Byte) : ∀ f ∈ cmpForms b h l, ReadForm State.compareA f := by
  simp only [cmpForms, List.forall_mem_cons]
  refine ⟨?_, ?_, ?_, ?_, ?_, ?_, ?_, ?_, List.forall_mem_nil _⟩ <;> exact ⟨fun _ _ => rfl, rfl, fun _ => rfl⟩

theorem readForm_cpx_cpy (b h l : Byte) :
    (∀ f ∈ cpxForms b h l, ReadForm State.compareX f) ∧ ∀ f ∈ cpyForms b h l, ReadForm State.compareY f := by
  simp only [cpxForms, cpyForms, List.forall_mem_cons]
  refine ⟨?cpx, ?cpy⟩ <;> refine ⟨?_, ?_, ?_, List.forall_mem_nil _⟩ <;> exact ⟨fun _ _ => rfl, rfl, fun _ => rfl⟩

/-- Settles O39: the three mnemonics run one rule, `compare`, on `A`, `X` and `Y`. -/
theorem comparesAreUnsigned : Obligations.ComparesAreUnsigned := by
  intro b h l s
  obtain ⟨hcpx, hcpy⟩ := readForm_cpx_cpy b h l
  simp only [List.forall_mem_cons]
  refine ⟨?cmp, ?cpx, ?cpy, List.forall_mem_nil _⟩
  case cmp => exact fun f hf => (readForm_cmp b h l f hf).completes_compare .cmp fun _ => rfl
  case cpx => exact fun f hf => (hcpx f hf).completes_compare .cpx fun _ => rfl
  case cpy => exact fun f hf => (hcpy f hf).completes_compare .cpy fun _ => rfl

/-! ### One more and one less modulo 256 -/

theorem byte_add_one_toNat (v : Byte) : (v + 1).toNat = (v.toNat + 1) % 256 := BitVec.toNat_add v 1

theorem byte_sub_one_toNat (v : Byte) : (v - 1).toNat = (v.toNat + 255) % 256 := by
  rw [Nat.add_comm]; exact BitVec.toNat_sub v 1

/-! ### DEC, INC -/

theorem modifyForm_dec_inc (b h l : Byte) :
    (∀ f ∈ decForms b h l, ModifyForm decByte f) ∧ ∀ f ∈ incForms b h l, ModifyForm incByte f := by
  simp only [decForms, incForms, List.forall_mem_cons]
  refine ⟨?dec, ?inc⟩ <;> refine ⟨?_, ?_, ?_, ?_, List.forall_mem_nil _⟩ <;>
    exact ⟨fun _ _ => rfl, rfl, fun _ => rfl⟩

/-- A form whose rule gives `r`, with Z and N from it, completes with `r` in its place and no carry effect. -/
theorem ModifyForm.completes_setZN {g : Byte → Byte → Byte × Byte} {f : InstrForm Place} {s : State} {r : Byte} {n : Nat}
    (hf : ModifyForm g f) (hwf : s.memory.wf = true) (hg : g (f.operand.value s) s.P = (r, setZN s.P r))
    (hr : r.toNat = n) :
    Completes s f 0 fun t =>
      ∃ r : Byte, r.toNat = n ∧ PlaceHolds f.operand s t r ∧ ZNFrom r t ∧ KeepsFlags [0, 2, 3, 4, 6] s t ∧
        KeepsIndexes s t :=
  hf.completes hwf hg fun _ hplace hP hindexes =>
    ⟨r, hr, hplace, ZNFrom_of_setZN hP, keepsFlags_of_setZN hP, hindexes⟩

/-- Settles O40: DEC and INC write back the byte one less or one more, with `setZN` of it as the status byte. -/
theorem memoryIncrementAndDecrementWrap : Obligations.MemoryIncrementAndDecrementWrap := by
  intro b h l s hwf
  obtain ⟨hdec, hinc⟩ := modifyForm_dec_inc b h l
  simp only [List.forall_mem_cons]
  refine ⟨?dec, ?inc, List.forall_mem_nil _⟩
  case dec => exact fun f hf => (hdec f hf).completes_setZN hwf rfl (byte_sub_one_toNat _)
  case inc => exact fun f hf => (hinc f hf).completes_setZN hwf rfl (byte_add_one_toNat _)

/-! ### DEX, DEY, INX, INY -/

/-- Settles O41: each rule loads its register with the register's byte one less or one more. -/
theorem registerIncrementAndDecrementWrap : Obligations.RegisterIncrementAndDecrementWrap := by
  intro s
  simp only [List.forall_mem_cons]
  refine ⟨⟨?dex, ?inx, List.forall_mem_nil _⟩, ?dey, ?iny, List.forall_mem_nil _⟩
  case dex =>
    exact (ImpliedEffect.loadX _).completes (fun _ _ => rfl) (exec_dex s) fun len cost =>
      ⟨byte_sub_one_toNat s.X, s.loadX_advance_frame _ len cost⟩
  case inx =>
    exact (ImpliedEffect.loadX _).completes (fun _ _ => rfl) (exec_inx s) fun len cost =>
      ⟨byte_add_one_toNat s.X, s.loadX_advance_frame _ len cost⟩
  case dey =>
    exact (ImpliedEffect.loadY _).completes (fun _ _ => rfl) (exec_dey s) fun len cost =>
      ⟨byte_sub_one_toNat s.Y, s.loadY_advance_frame _ len cost⟩
  case iny =>
    exact (ImpliedEffect.loadY _).completes (fun _ _ => rfl) (exec_iny s) fun len cost =>
      ⟨byte_add_one_toNat s.Y, s.loadY_advance_frame _ len cost⟩

end Sys2Proof.Machine
end

section
/-! PROOFS. A word in two slots of the stack buffer, high byte first, as JSR and BRK push it (R102, R104). -/

namespace Sys2Proof.Machine

/-- The stack buffer with the word `w` in the slots `i` and `i + 1`. -/
def Memory.writeWord (m : Memory) (i : Byte) (w : Addr) : Memory :=
  (m.write i.toNat (hi w)).write (i + 1).toNat (lo w)

theorem Memory.writeWord_wf {m : Memory} (i : Byte) (w : Addr) (h : m.wf = true) : (m.writeWord i w).wf = true :=
  Memory.write_wf _ _ (Memory.write_wf _ _ h)

theorem Memory.read_writeWord_ne (m : Memory) {i j : Byte} (w : Addr) (hhi : j ≠ i) (hlo : j ≠ i + 1) :
    (m.writeWord i w).read j.toNat = m.read j.toNat := by
  rw [Memory.writeWord, State.stack_read_write_ne _ _ hlo, State.stack_read_write_ne _ _ hhi]

theorem Memory.read_writeWord_hi {m : Memory} (i : Byte) (w : Addr) (h : m.wf = true) :
    (m.writeWord i w).read i.toNat = hi w := by
  have hne : i ≠ i + 1 := by simp
  rw [Memory.writeWord, State.stack_read_write_ne _ _ hne, Memory.read_write_same _ _ h]

theorem Memory.read_writeWord_lo {m : Memory} (i : Byte) (w : Addr) (h : m.wf = true) :
    (m.writeWord i w).read (i + 1).toNat = lo w :=
  Memory.read_write_same _ _ (Memory.write_wf _ _ h)

/-- The two bytes of a word in number arithmetic. -/
theorem hi_lo_toNat (w : Addr) : 256 * (hi w).toNat + (lo w).toNat = w.toNat := by
  rw [← wordOf_toNat, wordOf_hi_lo]

end Sys2Proof.Machine
end

section
/-! PROOFS. The family `46_control_transfer.md`: the branches (R91 to R99), JMP (R100, R101), JSR and RTS (R102, R103), BRK and
RTI (R104, R105). -/

namespace Sys2Proof.Machine

open Claims

/-! ### Branches -/

/-- The displacement is signed and counts from the next instruction, modulo 65536 (R66). -/
theorem relativeTarget_toNat (s : State) (d : Byte) :
    ((relativeTarget s d).toNat : Int) = (s.pc.toNat + 2 + d.toInt) % 65536 := by
  have hd := d.isLt
  have hnext : (s.pc + 2).toNat = (s.pc.toNat + 2) % 65536 := BitVec.toNat_add _ _
  rw [relativeTarget, sext16, BitVec.toInt_eq_toNat_cond, BitVec.toNat_add, hnext]
  split
  case isTrue hpos => rw [if_pos (by omega), zext16_toNat]; omega
  case isFalse hneg =>
    have hsext : (zext16 d + 0xFF00).toNat = (d.toNat + 65280) % 65536 := by
      rw [BitVec.toNat_add, zext16_toNat]; rfl
    rw [if_neg (by omega), hsext]; omega

/-- A taken branch costs one cycle, and one more on another page than the next instruction's (R91). -/
theorem branchInstr_taken (d : Byte) (s : State) :
    branchInstr true d s = .next (s.goto (relativeTarget s d)
      (2 + 1 + (if (relativeTarget s d).toNat / 256 = (s.pc.toNat + 2) % 65536 / 256 then 0 else 1))) := by
  have hpage : hi (relativeTarget s d) = hi (s.pc + 2) ↔
      (relativeTarget s d).toNat / 256 = (s.pc.toNat + 2) % 65536 / 256 := by
    rw [← BitVec.toNat_inj, hi_toNat, hi_toNat, BitVec.toNat_add]; rfl
  simp [branchInstr, ← hpage]

theorem branchInstr_not_taken (d : Byte) (s : State) : branchInstr false d s = .next (s.advance 2 2) := rfl

/-- The form's bytes decode to its instruction, which `exec` runs as a branch on the form's bit and value of `P`, at 2 cycles. -/
structure BranchForm (d : Byte) (f : InstrForm (Nat × Bool)) : Prop where
  encoded : f.Encoded
  cycles_eq : f.cycles = 2
  exec_eq : ∀ s, exec f.instr s = branchInstr (flagBit s f.operand.1 == f.operand.2) d s

theorem branchForm_set {bytes : List Byte} {i : Instr} {d : Byte} {x : Extra} (f : Flag)
    (hencoded : (⟨bytes, i, (f.bit, true), 2, x⟩ : InstrForm (Nat × Bool)).Encoded)
    (hexec : ∀ s, exec i s = branchInstr (test s.P f) d s) : BranchForm d ⟨bytes, i, (f.bit, true), 2, x⟩ :=
  ⟨hencoded, rfl, fun s => by rw [hexec, test_eq_getLsbD, flagBit, beq_true]⟩

theorem branchForm_clear {bytes : List Byte} {i : Instr} {d : Byte} {x : Extra} (f : Flag)
    (hencoded : (⟨bytes, i, (f.bit, false), 2, x⟩ : InstrForm (Nat × Bool)).Encoded)
    (hexec : ∀ s, exec i s = branchInstr (!test s.P f) d s) : BranchForm d ⟨bytes, i, (f.bit, false), 2, x⟩ :=
  ⟨hencoded, rfl, fun s => by rw [hexec, test_eq_getLsbD, flagBit, beq_false]⟩

theorem branchForm_of_mem (d : Byte) : ∀ f ∈ branchForms d, BranchForm d f := by
  simp only [branchForms, List.forall_mem_cons]
  refine ⟨?bcc, ?bcs, ?beq, ?bne, ?bmi, ?bpl, ?bvc, ?bvs, List.forall_mem_nil _⟩
  case bcc => exact branchForm_clear .C (fun _ _ => rfl) (exec_bcc d)
  case bcs => exact branchForm_set .C (fun _ _ => rfl) (exec_bcs d)
  case beq => exact branchForm_set .Z (fun _ _ => rfl) (exec_beq d)
  case bne => exact branchForm_clear .Z (fun _ _ => rfl) (exec_bne d)
  case bmi => exact branchForm_set .N (fun _ _ => rfl) (exec_bmi d)
  case bpl => exact branchForm_clear .N (fun _ _ => rfl) (exec_bpl d)
  case bvc => exact branchForm_clear .V (fun _ _ => rfl) (exec_bvc d)
  case bvs => exact branchForm_set .V (fun _ _ => rfl) (exec_bvs d)

/-- Settles O47: each branch runs `branchInstr` on its own bit, taken or not. -/
theorem branchesTestOneFlag : Obligations.BranchesTestOneFlag := by
  intro d s f hf
  obtain ⟨hencoded, hcycles, hexec⟩ := branchForm_of_mem d f hf
  refine ⟨hencoded, ?_⟩
  rw [hexec s, hcycles]
  by_cases htaken : flagBit s f.operand.1 = f.operand.2
  · rw [beq_iff_eq.mpr htaken, branchInstr_taken]
    exact ⟨_, rfl, rfl, fun _ => ⟨relativeTarget_toNat s d, (Nat.add_assoc _ _ _).symm⟩, absurd htaken⟩
  · rw [beq_eq_false_iff_ne.mpr htaken, branchInstr_not_taken]
    exact ⟨_, rfl, rfl, fun h => absurd h htaken, fun _ => ⟨BitVec.toNat_add _ _, rfl⟩⟩

/-! ### JMP -/

theorem wordOf_eq_ofNat (h l : Byte) : wordOf h l = BitVec.ofNat 16 (256 * h.toNat + l.toNat) := by
  rw [← wordOf_toNat, BitVec.ofNat_toNat, BitVec.setWidth_eq]

/-- The second byte of the target stays in the pointer's page (R67, R101). -/
theorem indirectTarget_toNat (s : State) (h l : Byte) :
    (indirectTarget s (wordOf h l)).toNat =
      256 * (s.memRead (BitVec.ofNat 16 (256 * h.toNat + (l.toNat + 1) % 256))).toNat +
        (s.memRead (BitVec.ofNat 16 (256 * h.toNat + l.toNat))).toNat := by
  rw [indirectTarget, hi_wordOf, lo_wordOf, wordOf_toNat, wordOf_eq_ofNat, wordOf_eq_ofNat, byte_add_one_toNat]

/-- Settles O48: both forms assign their target to `pc`. -/
theorem jumpsReachTheirTarget : Obligations.JumpsReachTheirTarget :=
  fun h l s => ⟨fun _ _ => rfl, fun _ _ => rfl, ⟨_, exec_jmpAbs _ s, wordOf_toNat h l, rfl⟩,
    ⟨_, exec_jmpInd _ s, indirectTarget_toNat s h l, rfl⟩⟩

/-! ### JSR, RTS -/

/-- What the slots above `S` hold after a rule that pushed the word `w` there. -/
theorem State.stackRead_of_writeWord {s t : State} {w : Addr} (hwf : s.stack.wf = true)
    (ht : t.stack = s.stack.writeWord (s.S + 1) w) :
    256 * (t.stackRead (s.S + 1)).toNat + (t.stackRead (s.S + 2)).toNat = w.toNat ∧
      KeepsStackBut [s.S + 1, s.S + 2] s t := by
  have hS : s.S + 2 = s.S + 1 + 1 := by rw [BitVec.add_assoc]; rfl
  simp only [KeepsStackBut, State.stackRead, hS, ht]
  refine ⟨by rw [Memory.read_writeWord_hi _ _ hwf, Memory.read_writeWord_lo _ _ hwf, hi_lo_toNat], fun i hmem => ?_⟩
  obtain ⟨hhi, hlo⟩ : i ≠ s.S + 1 ∧ i ≠ s.S + 1 + 1 := by simpa using hmem
  exact Memory.read_writeWord_ne _ w hhi hlo

/-- Settles O49, by the two cases of `execJsr_cases`. -/
theorem jsrPushesItsLastByteAddress : Obligations.JsrPushesItsLastByteAddress := by
  intro h l s hwf
  obtain ⟨t, ht⟩ := exec_next (.jsr (wordOf h l)) s
  refine ⟨fun _ _ => rfl, ?_⟩
  obtain ⟨hS, rfl⟩ | ⟨hS, -, hS2, hnext⟩ := execJsr_cases ht
  · exact ⟨fun hle => by omega, fun _ => ht⟩
  · obtain ⟨hword, hkeep⟩ := State.stackRead_of_writeWord (t := t) (w := s.pc + 2) hwf (by rw [hnext]; rfl)
    refine ⟨fun _ => ⟨t, ht, ?_⟩, fun hle => by omega⟩
    rw [BitVec.toNat_add] at hword
    subst hnext
    exact ⟨rfl, rfl, hS2, hword, hkeep, rfl⟩

/-- Settles O50, by the two cases of `execRts_cases`. -/
theorem rtsReturnsPastThePoppedAddress : Obligations.RtsReturnsPastThePoppedAddress := by
  intro s
  obtain ⟨t, ht⟩ := exec_next .rts s
  refine ⟨fun _ _ => rfl, ?_⟩
  obtain ⟨hS, rfl⟩ | ⟨hS, -, hS2, rfl⟩ := execRts_cases ht
  · exact ⟨fun hle => by omega, fun _ => ht⟩
  · refine ⟨fun _ => ⟨_, ht, ?pc, ?S, rfl⟩, fun hle => by omega⟩
    case pc => rw [BitVec.toNat_add, wordOf_toNat]; rfl
    case S => rw [hS2]; omega

/-! ### BRK, RTI -/

/-- Setting bit `n` of a byte. -/
theorem or_twoPow_getLsbD (p : Byte) (n : Nat) {k : Nat} (hk : k < 8) :
    (p ||| BitVec.twoPow 8 n).getLsbD k = if k = n then true else p.getLsbD k := by
  rw [BitVec.getLsbD_or, BitVec.getLsbD_twoPow]
  by_cases hkn : k = n
  · simp [hk, ← hkn]
  · simp [hkn, Ne.symm hkn]

/-- `assign` keeps every other bit but bit 5, which it sets (R51, R11). -/
theorem keepsFlags_of_assign {s t : State} {f : Flag} {b : Bool} {bits : List Nat} (h : t.P = assign s.P f b)
    (hbits : ∀ k ∈ bits, k < 8 ∧ k ≠ 5 ∧ k ≠ f.bit) : KeepsFlags bits s t := by
  simp only [KeepsFlags, flagBit, h]
  refine ⟨fun k hk => ?_, assign_bit5 _ _ _⟩
  obtain ⟨hlt, h5, hf⟩ := hbits k hk
  rw [assign_getLsbD _ _ _ _ hlt, if_neg h5, if_neg hf]

/-- What the slots above `S` hold after a rule that pushed the word `w` and then the byte `v` there. -/
theorem State.stackRead_of_writeWord_write {s t : State} {w : Addr} {v : Byte} (hwf : s.stack.wf = true)
    (ht : t.stack = (s.stack.writeWord (s.S + 1) w).write (s.S + 3).toNat v) :
    256 * (t.stackRead (s.S + 1)).toNat + (t.stackRead (s.S + 2)).toNat = w.toNat ∧ t.stackRead (s.S + 3) = v ∧
      KeepsStackBut [s.S + 1, s.S + 2, s.S + 3] s t := by
  obtain ⟨u, hu⟩ : ∃ u : State, u.stack = s.stack.writeWord (s.S + 1) w := ⟨{ s with stack := _ }, rfl⟩
  obtain ⟨hword, hkeep⟩ := State.stackRead_of_writeWord hwf hu
  rw [← hu] at ht
  have hsame : ∀ i, i ≠ s.S + 3 → t.stackRead i = u.stackRead i := fun i hne => by
    rw [State.stackRead, ht]; exact State.stack_read_write_ne _ v hne
  refine ⟨?word, ?byte, fun i hmem => ?keep⟩
  case word => rwa [hsame _ (by simp), hsame _ (by simp)]
  case byte => rw [State.stackRead, ht]; exact Memory.read_write_same _ v (hu ▸ Memory.writeWord_wf _ w hwf)
  case keep =>
    obtain ⟨houtside, hne⟩ : i ∉ [s.S + 1, s.S + 2] ∧ i ≠ s.S + 3 := by simpa [and_assoc] using hmem
    exact (hsame i hne).trans (hkeep i houtside)

/-- Settles O51, by the two cases of `execBrk_cases`. -/
theorem brkEntersThroughTheVector : Obligations.BrkEntersThroughTheVector := by
  intro s hwf
  obtain ⟨t, ht⟩ := exec_next .brk s
  refine ⟨fun _ _ => rfl, ?_⟩
  obtain ⟨hS, rfl⟩ | ⟨hS, -, -, hS3, hnext⟩ := execBrk_cases ht
  · exact ⟨fun hle => by omega, fun _ => ht⟩
  · have hslot : s.S + 3 = s.S + 1 + 1 + 1 := by rw [BitVec.add_assoc, BitVec.add_assoc]; rfl
    obtain ⟨hword, hbyte, hkeep⟩ := State.stackRead_of_writeWord_write (t := t) (w := s.pc + 2)
      (v := s.P ||| maskB) hwf (by rw [hnext, hslot]; rfl)
    have hP : t.P = assign s.P .I true := by rw [hnext]
    refine ⟨fun _ => ⟨t, ht, ?pc, ?cycle, ?S, ?word, fun k hk => ?status, hkeep, ?I, ?flags, ?frame⟩,
      fun hle => by omega⟩
    case pc => rw [hnext]; exact wordOf_toNat _ _
    case cycle => rw [hnext]
    case S => rw [hnext]; exact hS3
    case word => rw [hword, BitVec.toNat_add]; rfl
    case status => rw [hbyte]; exact or_twoPow_getLsbD s.P 4 hk
    case I => rw [flagBit, hP]; exact assign_getLsbD s.P .I true 2 (by decide)
    case flags => exact keepsFlags_of_assign hP (by decide)
    case frame => rw [hnext]

/-- Settles O52, by the two cases of `execRti_cases`. -/
theorem rtiRestoresStatusAndPc : Obligations.RtiRestoresStatusAndPc := by
  intro s
  obtain ⟨t, ht⟩ := exec_next .rti s
  refine ⟨fun _ _ => rfl, ?_⟩
  obtain ⟨hS, rfl⟩ | ⟨hS, -, -, hS3, rfl⟩ := execRti_cases ht
  · exact ⟨fun hle => by omega, fun _ => ht⟩
  · refine ⟨fun _ => ⟨_, ht, fun k hk => ?status, ?pc, ?S, rfl⟩, fun hle => by omega⟩
    case status => exact or_twoPow_getLsbD _ 5 hk
    case pc => rw [wordOf_toNat, BitVec.sub_sub]; rfl
    case S => rw [hS3]; omega

end Sys2Proof.Machine
end

section
/-! PROOFS. The family `47_stack_transfer_flag_nop.md`: PHA and PHP (R106, R108), PLA and PLP (R107, R109), the transfers (R110 to
R115), the flag instructions (R116 to R122) and NOP (R123). -/

namespace Sys2Proof.Machine

open Claims

/-! ### TAX, TAY, TXA, TYA, TSX, TXS -/

/-- Settles O44: each rule but TXS's loads its destination with the source, and TXS writes `S` alone. -/
theorem transfersCopyARegister : Obligations.TransfersCopyARegister := by
  intro s
  simp only [List.forall_mem_cons]
  refine ⟨⟨?tax, ?tsx, List.forall_mem_nil _⟩, ?tay, ⟨?txa, ?tya, List.forall_mem_nil _⟩, ?txs⟩
  case tax =>
    exact (ImpliedEffect.loadX _).completes (fun _ _ => rfl) (exec_tax s) fun len cost =>
      ⟨rfl, s.loadX_advance_frame _ len cost⟩
  case tsx =>
    exact (ImpliedEffect.loadX _).completes (fun _ _ => rfl) (exec_tsx s) fun len cost =>
      ⟨rfl, s.loadX_advance_frame _ len cost⟩
  case tay =>
    exact (ImpliedEffect.loadY _).completes (fun _ _ => rfl) (exec_tay s) fun len cost =>
      ⟨rfl, s.loadY_advance_frame _ len cost⟩
  case txa =>
    exact (ImpliedEffect.loadA _).completes (fun _ _ => rfl) (exec_txa s) fun len cost =>
      ⟨rfl, s.loadA_advance_frame _ len cost⟩
  case tya =>
    exact (ImpliedEffect.loadA _).completes (fun _ _ => rfl) (exec_tya s) fun len cost =>
      ⟨rfl, s.loadA_advance_frame _ len cost⟩
  case txs =>
    exact ImpliedEffect.txs.completes (fun _ _ => rfl) (exec_txs s) fun _ _ =>
      ⟨rfl, rfl, rfl, rfl, rfl, fun _ => rfl, fun _ => rfl⟩

/-! ### PHA, PHP -/

/-- What the stack buffer holds after a rule that wrote the byte `v` to slot `i`. -/
theorem State.stackRead_of_write {s t : State} {i v : Byte} (hwf : s.stack.wf = true)
    (ht : t.stack = s.stack.write i.toNat v) : t.stackRead i = v ∧ KeepsStackBut [i] s t := by
  simp only [KeepsStackBut, State.stackRead, ht, List.mem_singleton]
  exact ⟨Memory.read_write_same _ v hwf, fun _ hne => State.stack_read_write_ne _ v hne⟩

/-- A one-byte form that `exec` runs as the push of the byte `v` completes with `S` below 255, and overflows at 255 (R106, R108). -/
theorem push_completes_or_overflows {v op : Byte} {i : Instr} {s : State} (hwf : s.stack.wf = true)
    (hencoded : (one op i 3).Encoded)
    (hexec : exec i s = commit s ((s.push v).bind fun t => .ok (t.advance (Mode.length .implied) 3))) :
    (s.S.toNat < 255 → Completes s (one op i 3) 0 fun t =>
      t.S.toNat = s.S.toNat + 1 ∧ t.stackRead t.S = v ∧ KeepsStackBut [t.S] s t ∧
      t = { s with S := t.S, stack := t.stack, pc := t.pc, cycle := t.cycle }) ∧
    (s.S.toNat = 255 → exec i s = .next (s.raise .stackOverflow)) := by
  obtain ⟨t, ht⟩ := exec_next i s
  obtain ⟨hS, rfl⟩ | ⟨hS, hS1, hnext⟩ := execPush_cases (hexec ▸ ht)
  · exact ⟨fun hlt => absurd hS hlt.ne, fun _ => ht⟩
  · obtain ⟨htop, hkeep⟩ := State.stackRead_of_write (t := t) (i := s.S + 1) (v := v) hwf (by rw [hnext])
    subst hnext
    exact ⟨fun _ => ⟨hencoded, _, ht, rfl, rfl, rfl, hS1, htop, hkeep, rfl⟩, fun hfull => absurd hfull hS.ne⟩

/-- Settles O53: both instructions run one rule, the push, on `A` and on `P`. -/
theorem pushesWriteTheNextSlot : Obligations.PushesWriteTheNextSlot := by
  intro s hwf
  simp only [List.forall_mem_cons]
  exact ⟨push_completes_or_overflows hwf (fun _ _ => rfl) (exec_pha s),
    push_completes_or_overflows hwf (fun _ _ => rfl) (exec_php s), List.forall_mem_nil _⟩

/-! ### PLA, PLP -/

/-- Settles O54, by the two cases of `State.pop_cases`, which both rules begin with. -/
theorem pullsReadTheTopSlot : Obligations.PullsReadTheTopSlot := by
  intro s
  obtain ⟨hS, hpop⟩ | ⟨hS, hS1, hpop⟩ := s.pop_cases
  · refine ⟨fun hpos => absurd (congrArg BitVec.toNat hS) hpos.ne', fun _ => ⟨?pla, ?plp⟩⟩
    case pla => rw [exec_pla, hpop]; rfl
    case plp => rw [exec_plp, hpop]; rfl
  · have hless : (s.S - 1).toNat + 1 = s.S.toNat := by rw [hS1, Nat.sub_add_cancel hS]
    refine ⟨fun _ => ⟨⟨fun _ _ => rfl, ?pla⟩, fun _ _ => rfl, ?plp⟩, fun hempty => absurd hempty hS.ne'⟩
    case pla =>
      have hnext : exec .pla s =
          .next ((State.loadA { s with S := s.S - 1 } (s.stackRead s.S)).advance 1 4) := by
        rw [exec_pla, hpop]; rfl
      exact ⟨_, hnext, rfl, rfl, rfl, rfl, hless, ZNFrom_of_setZN rfl, keepsFlags_of_setZN rfl, rfl⟩
    case plp =>
      have hnext : exec .plp s =
          .next ((State.setP { s with S := s.S - 1 } (s.stackRead s.S ||| mask1)).advance 1 4) := by
        rw [exec_plp, hpop]; rfl
      exact ⟨_, hnext, rfl, rfl, rfl, fun k hk => or_twoPow_getLsbD _ 5 hk, hless, rfl⟩

/-! ### CLC, SEC, CLI, SEI, CLV, CLD, SED -/

theorem Flag.bit_ne_five (f : Flag) : f.bit ≠ 5 := by cases f <;> decide

/-- A one-byte form that `exec` runs as a write of `b` to the flag `f` completes, and writes that bit of `P` alone but for
bit 5 (R51, R11). -/
theorem flag_completes {op : Byte} {i : Instr} {cycles : Nat} {s : State} (f : Flag) (b : Bool)
    (hencoded : (one op i cycles).Encoded)
    (hexec : exec i s = impliedInstr (fun t => t.setP (assign t.P f b)) cycles s) :
    Completes s (one op i cycles) 0 fun t =>
      (∀ k : Nat, k < 8 → flagBit t k = if k = f.bit then b else if k = 5 then true else flagBit s k) ∧
      t.A = s.A ∧ KeepsIndexes s t ∧ KeepsMemory s t := by
  refine (ImpliedEffect.flag f b).completes hencoded hexec fun _ _ =>
    ⟨fun k hk => ?bit, rfl, ⟨rfl, rfl, rfl, fun _ => rfl⟩, fun _ => rfl⟩
  case bit =>
    exact (assign_getLsbD s.P f b k hk).trans (ite_ite_comm _ _ _ _ fun h5 hf => f.bit_ne_five (hf.symm.trans h5))

/-- Settles O45: each rule is `assign` (R51) of its own flag at its own value. -/
theorem flagInstructionsWriteOneBit : Obligations.FlagInstructionsWriteOneBit := by
  intro s
  simp only [List.forall_mem_cons]
  exact ⟨flag_completes .C false (fun _ _ => rfl) (exec_clc s), flag_completes .C true (fun _ _ => rfl) (exec_sec s),
    flag_completes .I false (fun _ _ => rfl) (exec_cli s), flag_completes .I true (fun _ _ => rfl) (exec_sei s),
    flag_completes .V false (fun _ _ => rfl) (exec_clv s), flag_completes .D false (fun _ _ => rfl) (exec_cld s),
    flag_completes .D true (fun _ _ => rfl) (exec_sed s), List.forall_mem_nil _⟩

/-! ### NOP -/

/-- Settles O46: NOP's rule is the identity, so only the common ending (R135, R136) writes. -/
theorem nopChangesOnlyPcAndCycle : Obligations.NopChangesOnlyPcAndCycle :=
  fun s => ⟨fun _ _ => rfl, exec_nop s, fun op cyc => exec_nopIllegal op cyc s⟩

end Sys2Proof.Machine
end

section
/-! PROOFS. Every instruction by its row of the dispatch table (R36): its name, its operand and its cost together with the
meaning that `exec` gives it. `ExecShape` and `Meaning` leave the row out, which the facts about mnemonics, costs and
encodings ask for. -/

namespace Sys2Proof.Machine

open Claims

/-- The rules that read an operand, by mnemonic. -/
inductive ReadMnemonic : String → (State → Byte → State) → Prop
  | adc : ReadMnemonic "ADC" State.adc
  | sbc : ReadMnemonic "SBC" State.sbc
  | and : ReadMnemonic "AND" State.andA
  | ora : ReadMnemonic "ORA" State.orA
  | eor : ReadMnemonic "EOR" State.eorA
  | bit : ReadMnemonic "BIT" State.bitTest
  | cmp : ReadMnemonic "CMP" State.compareA
  | cpx : ReadMnemonic "CPX" State.compareX
  | cpy : ReadMnemonic "CPY" State.compareY
  | lda : ReadMnemonic "LDA" State.loadA
  | ldx : ReadMnemonic "LDX" State.loadX
  | ldy : ReadMnemonic "LDY" State.loadY

/-- The registers that the stores write to memory, by mnemonic. -/
inductive StoreMnemonic : String → (State → Byte) → Prop
  | sta : StoreMnemonic "STA" State.A
  | stx : StoreMnemonic "STX" State.X
  | sty : StoreMnemonic "STY" State.Y

/-- The read-modify-write rules, by mnemonic. -/
inductive ModifyMnemonic : String → (Byte → Byte → Byte × Byte) → Prop
  | asl : ModifyMnemonic "ASL" aslByte
  | lsr : ModifyMnemonic "LSR" lsrByte
  | rol : ModifyMnemonic "ROL" rolByte
  | ror : ModifyMnemonic "ROR" rorByte
  | dec : ModifyMnemonic "DEC" decByte
  | inc : ModifyMnemonic "INC" incByte

/-- The Implied rules that leave the stack buffer alone, by mnemonic. -/
inductive ImpliedMnemonic : String → (State → State) → Prop
  | dex : ImpliedMnemonic "DEX" (fun t => t.loadX (t.X - 1))
  | dey : ImpliedMnemonic "DEY" (fun t => t.loadY (t.Y - 1))
  | inx : ImpliedMnemonic "INX" (fun t => t.loadX (t.X + 1))
  | iny : ImpliedMnemonic "INY" (fun t => t.loadY (t.Y + 1))
  | tax : ImpliedMnemonic "TAX" (fun t => t.loadX t.A)
  | tay : ImpliedMnemonic "TAY" (fun t => t.loadY t.A)
  | txa : ImpliedMnemonic "TXA" (fun t => t.loadA t.X)
  | tya : ImpliedMnemonic "TYA" (fun t => t.loadA t.Y)
  | tsx : ImpliedMnemonic "TSX" (fun t => t.loadX t.S)
  | txs : ImpliedMnemonic "TXS" (fun t => { t with S := t.X })
  | clc : ImpliedMnemonic "CLC" (fun t => t.setP (assign t.P .C false))
  | sec : ImpliedMnemonic "SEC" (fun t => t.setP (assign t.P .C true))
  | cli : ImpliedMnemonic "CLI" (fun t => t.setP (assign t.P .I false))
  | sei : ImpliedMnemonic "SEI" (fun t => t.setP (assign t.P .I true))
  | clv : ImpliedMnemonic "CLV" (fun t => t.setP (assign t.P .V false))
  | cld : ImpliedMnemonic "CLD" (fun t => t.setP (assign t.P .D false))
  | sed : ImpliedMnemonic "SED" (fun t => t.setP (assign t.P .D true))
  | nop : ImpliedMnemonic "NOP" (fun t => t)

/-- The conditions of the branches, by mnemonic (R92 to R99). -/
inductive BranchMnemonic : String → (State → Bool) → Prop
  | bcc : BranchMnemonic "BCC" (fun s => !test s.P .C)
  | bcs : BranchMnemonic "BCS" (fun s => test s.P .C)
  | beq : BranchMnemonic "BEQ" (fun s => test s.P .Z)
  | bne : BranchMnemonic "BNE" (fun s => !test s.P .Z)
  | bmi : BranchMnemonic "BMI" (fun s => test s.P .N)
  | bpl : BranchMnemonic "BPL" (fun s => !test s.P .N)
  | bvc : BranchMnemonic "BVC" (fun s => !test s.P .V)
  | bvs : BranchMnemonic "BVS" (fun s => test s.P .V)

/-- The targets of JMP, absolute and indirect (R100, R101). -/
inductive JumpTarget : (State → Addr) → Prop
  | absolute (w : Addr) : JumpTarget (fun _ => w)
  | indirect (w : Addr) : JumpTarget (fun s => indirectTarget s w)

/-- The memory operand of an operand or of a place, which its row's mode and the bytes must name. -/
def Operand.memory? : Operand → Option MemOperand
  | .immediate _ => none
  | .memory m => some m

def Place.memory? : Place → Option MemOperand
  | .accumulator => none
  | .memory m => some m

/-- The encodings of the accumulator shifts and rotates (R64). -/
def accumulatorEncodings : List (List Byte) := [[0x0A], [0x4A], [0x2A], [0x6A]]

/-- What the instruction `i` of the row `row` means: the row's mnemonic names the rule, the row's mode and the bytes of
`i` name the operand, and the row gives the cost. -/
inductive RowMeaning (row : Row) : Instr → (State → Host.Outcome State Fault Refusal) → Prop
  | read {i e o} (h : ReadMnemonic row.mnemonic e) (hm : memOperandOf row.mode (encode i) = o.memory?)
      (hlen : o.length = (encode i).length) (hx : row.extra ≠ .branch) :
      RowMeaning row i (readInstr e o row.cycles row.extra)
  | store {i v m} (h : StoreMnemonic row.mnemonic v) (hm : memOperandOf row.mode (encode i) = some m)
      (hlen : m.mode.length = (encode i).length) (hx : row.extra = .none) :
      RowMeaning row i (fun s => storeInstr (v s) m row.cycles s)
  | modify {i f pl} (h : ModifyMnemonic row.mnemonic f) (hm : memOperandOf row.mode (encode i) = pl.memory?)
      (hacc : pl = .accumulator → encode i ∈ accumulatorEncodings)
      (hlen : pl.length = (encode i).length) (hx : row.extra = .none) :
      RowMeaning row i (modifyInstr f pl row.cycles)
  | implied {i e} (h : ImpliedMnemonic row.mnemonic e) (hlen : (encode i).length = 1) (hx : row.extra = .none) :
      RowMeaning row i (impliedInstr e row.cycles)
  | branch {i cond} (h : BranchMnemonic row.mnemonic cond) (d : Byte) (hlen : (encode i).length = 2)
      (hc : row.cycles = 2) (hx : row.extra = .branch) : RowMeaning row i (fun s => branchInstr (cond s) d s)
  | jump {i target} (h : row.mnemonic = "JMP") (htarget : JumpTarget target) (hx : row.extra = .none) :
      RowMeaning row i (fun s => .next (s.goto (target s) row.cycles))
  | jsr (w : Addr) (h : row.mnemonic = "JSR") (hc : row.cycles = 6) (hx : row.extra = .none) :
      RowMeaning row (.jsr w) (execJsr w)
  | rts (h : row.mnemonic = "RTS") (hc : row.cycles = 6) (hx : row.extra = .none) : RowMeaning row .rts execRts
  | brk (h : row.mnemonic = "BRK") (hc : row.cycles = 7) (hx : row.extra = .none) : RowMeaning row .brk execBrk
  | rti (h : row.mnemonic = "RTI") (hc : row.cycles = 6) (hx : row.extra = .none) : RowMeaning row .rti execRti
  | pha (h : row.mnemonic = "PHA") (hc : row.cycles = 3) (hx : row.extra = .none) : RowMeaning row .pha execPha
  | pla (h : row.mnemonic = "PLA") (hc : row.cycles = 4) (hx : row.extra = .none) : RowMeaning row .pla execPla
  | php (h : row.mnemonic = "PHP") (hc : row.cycles = 3) (hx : row.extra = .none) : RowMeaning row .php execPhp
  | plp (h : row.mnemonic = "PLP") (hc : row.cycles = 4) (hx : row.extra = .none) : RowMeaning row .plp execPlp

/-- An instruction is an illegal NOP (R38), or one of a row with its operand `b` or `w` and its meaning. -/
inductive InstrCase : Instr → Prop
  | illegal (op : Byte) (cyc : Nat) : InstrCase (.nopIllegal op cyc)
  | row {i : Instr} {op : Byte} {operand : List Byte} {row : Row} (b : Byte) (w : Addr)
      (hbytes : encode i = op :: operand) (hrow : lookup op = some row) (hi : i = row.form.instr b w)
      (h : RowMeaning row i (exec i)) : InstrCase i

/-- The bytes of a word operand name the word again (R35). -/
theorem memOperandOf_word {mode : Mode} {make : Addr → MemOperand} {op : Byte} (w : Addr)
    (hmake : ∀ h l, memOperandOf mode [op, l, h] = some (make (wordOf h l))) :
    memOperandOf mode [op, lo w, hi w] = some (make w) := by
  rw [hmake, wordOf_hi_lo]

/-- Every instruction falls under one of the two. -/
theorem instr_case (i : Instr) : InstrCase i := by
  cases i with
  | adcImm b | adcZp b | adcZpX b | adcIndX b | adcIndY b => exact .row b 0 rfl rfl rfl (.read .adc rfl rfl nofun)
  | adcAbs w | adcAbsX w | adcAbsY w =>
    exact .row 0 w rfl rfl rfl (.read .adc (memOperandOf_word w fun _ _ => rfl) rfl nofun)
  | sbcImm b | sbcZp b | sbcZpX b | sbcIndX b | sbcIndY b => exact .row b 0 rfl rfl rfl (.read .sbc rfl rfl nofun)
  | sbcAbs w | sbcAbsX w | sbcAbsY w =>
    exact .row 0 w rfl rfl rfl (.read .sbc (memOperandOf_word w fun _ _ => rfl) rfl nofun)
  | andImm b | andZp b | andZpX b | andIndX b | andIndY b => exact .row b 0 rfl rfl rfl (.read .and rfl rfl nofun)
  | andAbs w | andAbsX w | andAbsY w =>
    exact .row 0 w rfl rfl rfl (.read .and (memOperandOf_word w fun _ _ => rfl) rfl nofun)
  | oraImm b | oraZp b | oraZpX b | oraIndX b | oraIndY b => exact .row b 0 rfl rfl rfl (.read .ora rfl rfl nofun)
  | oraAbs w | oraAbsX w | oraAbsY w =>
    exact .row 0 w rfl rfl rfl (.read .ora (memOperandOf_word w fun _ _ => rfl) rfl nofun)
  | eorImm b | eorZp b | eorZpX b | eorIndX b | eorIndY b => exact .row b 0 rfl rfl rfl (.read .eor rfl rfl nofun)
  | eorAbs w | eorAbsX w | eorAbsY w =>
    exact .row 0 w rfl rfl rfl (.read .eor (memOperandOf_word w fun _ _ => rfl) rfl nofun)
  | bitZp b => exact .row b 0 rfl rfl rfl (.read .bit rfl rfl nofun)
  | bitAbs w =>
    exact .row 0 w rfl rfl rfl (.read .bit (memOperandOf_word w fun _ _ => rfl) rfl nofun)
  | aslAcc => exact .row 0 0 rfl rfl rfl (.modify .asl rfl (fun _ => by decide) rfl rfl)
  | aslZp b | aslZpX b => exact .row b 0 rfl rfl rfl (.modify .asl rfl nofun rfl rfl)
  | aslAbs w | aslAbsX w =>
    exact .row 0 w rfl rfl rfl (.modify .asl (memOperandOf_word w fun _ _ => rfl) nofun rfl rfl)
  | lsrAcc => exact .row 0 0 rfl rfl rfl (.modify .lsr rfl (fun _ => by decide) rfl rfl)
  | lsrZp b | lsrZpX b => exact .row b 0 rfl rfl rfl (.modify .lsr rfl nofun rfl rfl)
  | lsrAbs w | lsrAbsX w =>
    exact .row 0 w rfl rfl rfl (.modify .lsr (memOperandOf_word w fun _ _ => rfl) nofun rfl rfl)
  | rolAcc => exact .row 0 0 rfl rfl rfl (.modify .rol rfl (fun _ => by decide) rfl rfl)
  | rolZp b | rolZpX b => exact .row b 0 rfl rfl rfl (.modify .rol rfl nofun rfl rfl)
  | rolAbs w | rolAbsX w =>
    exact .row 0 w rfl rfl rfl (.modify .rol (memOperandOf_word w fun _ _ => rfl) nofun rfl rfl)
  | rorAcc => exact .row 0 0 rfl rfl rfl (.modify .ror rfl (fun _ => by decide) rfl rfl)
  | rorZp b | rorZpX b => exact .row b 0 rfl rfl rfl (.modify .ror rfl nofun rfl rfl)
  | rorAbs w | rorAbsX w =>
    exact .row 0 w rfl rfl rfl (.modify .ror (memOperandOf_word w fun _ _ => rfl) nofun rfl rfl)
  | cmpImm b | cmpZp b | cmpZpX b | cmpIndX b | cmpIndY b => exact .row b 0 rfl rfl rfl (.read .cmp rfl rfl nofun)
  | cmpAbs w | cmpAbsX w | cmpAbsY w =>
    exact .row 0 w rfl rfl rfl (.read .cmp (memOperandOf_word w fun _ _ => rfl) rfl nofun)
  | cpxImm b | cpxZp b => exact .row b 0 rfl rfl rfl (.read .cpx rfl rfl nofun)
  | cpxAbs w =>
    exact .row 0 w rfl rfl rfl (.read .cpx (memOperandOf_word w fun _ _ => rfl) rfl nofun)
  | cpyImm b | cpyZp b => exact .row b 0 rfl rfl rfl (.read .cpy rfl rfl nofun)
  | cpyAbs w =>
    exact .row 0 w rfl rfl rfl (.read .cpy (memOperandOf_word w fun _ _ => rfl) rfl nofun)
  | decZp b | decZpX b => exact .row b 0 rfl rfl rfl (.modify .dec rfl nofun rfl rfl)
  | decAbs w | decAbsX w =>
    exact .row 0 w rfl rfl rfl (.modify .dec (memOperandOf_word w fun _ _ => rfl) nofun rfl rfl)
  | incZp b | incZpX b => exact .row b 0 rfl rfl rfl (.modify .inc rfl nofun rfl rfl)
  | incAbs w | incAbsX w =>
    exact .row 0 w rfl rfl rfl (.modify .inc (memOperandOf_word w fun _ _ => rfl) nofun rfl rfl)
  | dex => exact .row 0 0 rfl rfl rfl (.implied .dex rfl rfl)
  | dey => exact .row 0 0 rfl rfl rfl (.implied .dey rfl rfl)
  | inx => exact .row 0 0 rfl rfl rfl (.implied .inx rfl rfl)
  | iny => exact .row 0 0 rfl rfl rfl (.implied .iny rfl rfl)
  | bcc d => exact .row d 0 rfl rfl rfl (.branch .bcc d rfl rfl rfl)
  | bcs d => exact .row d 0 rfl rfl rfl (.branch .bcs d rfl rfl rfl)
  | beq d => exact .row d 0 rfl rfl rfl (.branch .beq d rfl rfl rfl)
  | bne d => exact .row d 0 rfl rfl rfl (.branch .bne d rfl rfl rfl)
  | bmi d => exact .row d 0 rfl rfl rfl (.branch .bmi d rfl rfl rfl)
  | bpl d => exact .row d 0 rfl rfl rfl (.branch .bpl d rfl rfl rfl)
  | bvc d => exact .row d 0 rfl rfl rfl (.branch .bvc d rfl rfl rfl)
  | bvs d => exact .row d 0 rfl rfl rfl (.branch .bvs d rfl rfl rfl)
  | jmpAbs w => exact .row 0 w rfl rfl rfl (.jump rfl (.absolute w) rfl)
  | jmpInd w => exact .row 0 w rfl rfl rfl (.jump rfl (.indirect w) rfl)
  | jsr w => exact .row 0 w rfl rfl rfl (.jsr w rfl rfl rfl)
  | rts => exact .row 0 0 rfl rfl rfl (.rts rfl rfl rfl)
  | brk => exact .row 0 0 rfl rfl rfl (.brk rfl rfl rfl)
  | rti => exact .row 0 0 rfl rfl rfl (.rti rfl rfl rfl)
  | pha => exact .row 0 0 rfl rfl rfl (.pha rfl rfl rfl)
  | pla => exact .row 0 0 rfl rfl rfl (.pla rfl rfl rfl)
  | php => exact .row 0 0 rfl rfl rfl (.php rfl rfl rfl)
  | plp => exact .row 0 0 rfl rfl rfl (.plp rfl rfl rfl)
  | tax => exact .row 0 0 rfl rfl rfl (.implied .tax rfl rfl)
  | tay => exact .row 0 0 rfl rfl rfl (.implied .tay rfl rfl)
  | txa => exact .row 0 0 rfl rfl rfl (.implied .txa rfl rfl)
  | tya => exact .row 0 0 rfl rfl rfl (.implied .tya rfl rfl)
  | tsx => exact .row 0 0 rfl rfl rfl (.implied .tsx rfl rfl)
  | txs => exact .row 0 0 rfl rfl rfl (.implied .txs rfl rfl)
  | clc => exact .row 0 0 rfl rfl rfl (.implied .clc rfl rfl)
  | sec => exact .row 0 0 rfl rfl rfl (.implied .sec rfl rfl)
  | cli => exact .row 0 0 rfl rfl rfl (.implied .cli rfl rfl)
  | sei => exact .row 0 0 rfl rfl rfl (.implied .sei rfl rfl)
  | clv => exact .row 0 0 rfl rfl rfl (.implied .clv rfl rfl)
  | cld => exact .row 0 0 rfl rfl rfl (.implied .cld rfl rfl)
  | sed => exact .row 0 0 rfl rfl rfl (.implied .sed rfl rfl)
  | nop => exact .row 0 0 rfl rfl rfl (.implied .nop rfl rfl)
  | ldaImm b | ldaZp b | ldaZpX b | ldaIndX b | ldaIndY b => exact .row b 0 rfl rfl rfl (.read .lda rfl rfl nofun)
  | ldaAbs w | ldaAbsX w | ldaAbsY w =>
    exact .row 0 w rfl rfl rfl (.read .lda (memOperandOf_word w fun _ _ => rfl) rfl nofun)
  | ldxImm b | ldxZp b | ldxZpY b => exact .row b 0 rfl rfl rfl (.read .ldx rfl rfl nofun)
  | ldxAbs w | ldxAbsY w =>
    exact .row 0 w rfl rfl rfl (.read .ldx (memOperandOf_word w fun _ _ => rfl) rfl nofun)
  | ldyImm b | ldyZp b | ldyZpX b => exact .row b 0 rfl rfl rfl (.read .ldy rfl rfl nofun)
  | ldyAbs w | ldyAbsX w =>
    exact .row 0 w rfl rfl rfl (.read .ldy (memOperandOf_word w fun _ _ => rfl) rfl nofun)
  | staZp b | staZpX b | staIndX b | staIndY b => exact .row b 0 rfl rfl rfl (.store .sta rfl rfl rfl)
  | staAbs w | staAbsX w | staAbsY w =>
    exact .row 0 w rfl rfl rfl (.store .sta (memOperandOf_word w fun _ _ => rfl) rfl rfl)
  | stxZp b | stxZpY b => exact .row b 0 rfl rfl rfl (.store .stx rfl rfl rfl)
  | stxAbs w =>
    exact .row 0 w rfl rfl rfl (.store .stx (memOperandOf_word w fun _ _ => rfl) rfl rfl)
  | styZp b | styZpX b => exact .row b 0 rfl rfl rfl (.store .sty rfl rfl rfl)
  | styAbs w =>
    exact .row 0 w rfl rfl rfl (.store .sty (memOperandOf_word w fun _ _ => rfl) rfl rfl)
  | nopIllegal op cyc => exact .illegal op cyc

/-! ### What the mnemonics say -/

theorem ReadMnemonic.effect {n : String} {e : State → Byte → State} (h : ReadMnemonic n e) : ReadEffect e := by
  cases h <;> constructor

theorem ImpliedMnemonic.effect {n : String} {e : State → State} (h : ImpliedMnemonic n e) : ImpliedEffect e := by
  cases h with
  | dex | inx | tax | tsx => exact .loadX _
  | dey | iny | tay => exact .loadY _
  | txa | tya => exact .loadA _
  | txs => exact .txs
  | clc | sec | cli | sei | clv | cld | sed => exact .flag _ _
  | nop => exact .nop

theorem ModifyMnemonic.effect {n : String} {f : Byte → Byte → Byte × Byte} (h : ModifyMnemonic n f) :
    ModifyEffect f := by
  cases h <;> constructor

theorem mnemonicOf_of_lookup {i : Instr} {row : Row} {op : Byte} {operand : List Byte}
    (hbytes : encode i = op :: operand) (hrow : lookup op = some row) : mnemonicOf i = row.mnemonic := by
  simp [mnemonicOf, hbytes, hrow]

end Sys2Proof.Machine
end

section
/-! PROOFS. The family `30_encoding.md`: decode and encode, row by row of the dispatch table (R33 to R38). -/

namespace Sys2Proof

open Machine Claims

/-- The operand bytes of an instruction of this form, low byte first (R35). -/
def Form.operandBytes (b : Byte) (w : Addr) : Form → List Byte
  | .f1 _ => []
  | .f2 _ => [b]
  | .f3 _ => [lo w, hi w]

theorem Form.read_operandBytes (f : Form) (op b : Byte) (w : Addr) (rest : List Byte) :
    f.read op (f.operandBytes b w ++ rest) = .ok (f.instr b w, rest) := by
  cases f with
  | f1 | f2 => rfl
  | f3 make => exact congrArg (fun v => Except.ok (make v, rest)) (wordOf_hi_lo w)

/-- What a form reads is an instruction of the form, off that instruction's operand bytes. -/
theorem Form.operandBytes_of_read {f : Form} {op : Byte} {bytes rest : List Byte} {i : Instr}
    (h : f.read op bytes = .ok (i, rest)) :
    ∃ b w, i = f.instr b w ∧ bytes = f.operandBytes b w ++ rest := by
  match f, bytes, h with
  | .f1 _, _, rfl => exact ⟨0, 0, rfl, rfl⟩
  | .f2 _, b :: _, rfl => exact ⟨b, 0, rfl, rfl⟩
  | .f3 _, l :: h :: _, rfl => exact ⟨0, wordOf h l, rfl, by simp [Form.operandBytes]⟩

/-! ### The rows -/

/-- Every row's instruction encodes as the row says, whatever its operand is (R33 to R36). -/
theorem encode_of_row (b : Byte) (w : Addr) :
    ∀ row ∈ dispatchTable, encode (row.form.instr b w) = row.opcode :: row.form.operandBytes b w :=
  List.map_inj_left.mp (show dispatchTable.map (fun row => encode (row.form.instr b w)) =
    dispatchTable.map (fun row => row.opcode :: row.form.operandBytes b w) from rfl)

/-- Every row's instruction is well formed in every configuration. -/
theorem wf_of_row (cfg : Config) (b : Byte) (w : Addr) :
    ∀ row ∈ dispatchTable, (row.form.instr b w).wf cfg = true :=
  List.all_eq_true.mp (show dispatchTable.all (fun row => (row.form.instr b w).wf cfg) = true from rfl)

/-- Settles O1: a row's instruction is read back off its own operand bytes, an illegal NOP by its entry. -/
theorem decodeOfEncodeIsInstruction : Obligations.DecodeOfEncodeIsInstruction := by
  intro cfg i rest hcfg hi
  cases instr_case i with
  | illegal op cyc => exact decode_of_mem_illegalNops rest hcfg (by simpa [Instr.wf] using hi)
  | row b w hbytes hrow hinstr h =>
    obtain ⟨hmem, rfl⟩ := lookup_mem hrow
    subst hinstr
    rw [encode_of_row b w _ hmem, List.cons_append, decode_of_lookup _ hrow]
    exact Form.read_operandBytes _ _ b w rest

/-- The entry that decode finds is listed, under the byte asked for (R38). -/
theorem mem_of_illegalNop {cfg : Config} {op : Byte} {e : Byte × Nat} (h : illegalNop cfg op = some e) :
    e ∈ cfg.illegalNops ∧ e.1 = op :=
  ⟨List.mem_of_find?_eq_some h, by simpa using List.find?_some h⟩

/-- What decoding says: the row of the first byte and its operand bytes, or the byte's entry in `ILLEGAL_NOPS`. -/
theorem decode_cases {cfg : Config} {bytes rest : List Byte} {i : Instr} (h : decode cfg bytes = .ok (i, rest)) :
    ∃ op more, bytes = op :: more ∧
      ((∃ row b w, lookup op = some row ∧ i = row.form.instr b w ∧ more = row.form.operandBytes b w ++ rest) ∨
        ∃ cyc, lookup op = none ∧ illegalNop cfg op = some (op, cyc) ∧ i = .nopIllegal op cyc ∧ more = rest) := by
  cases bytes with
  | nil => cases h
  | cons op more =>
    refine ⟨op, more, rfl, ?_⟩
    cases hrow : lookup op with
    | some row =>
      rw [decode_of_lookup more hrow] at h
      obtain ⟨b, w, hi, hmore⟩ := Form.operandBytes_of_read h
      exact .inl ⟨row, b, w, rfl, hi, hmore⟩
    | none =>
      rw [decode_of_no_row more hrow] at h
      cases hentry : illegalNop cfg op with
      | none => simp [hentry] at h
      | some e =>
        simp only [hentry] at h
        cases h
        obtain ⟨-, rfl⟩ := mem_of_illegalNop hentry
        exact .inr ⟨e.2, rfl, rfl, rfl, rfl⟩

/-- Settles O2, by the two cases of `decode_cases`. -/
theorem decodedBytesReencode : Obligations.DecodedBytesReencode := by
  intro cfg bytes rest i h
  obtain ⟨op, more, rfl, ⟨row, b, w, hrow, rfl, rfl⟩ | ⟨cyc, -, hentry, rfl, rfl⟩⟩ := decode_cases h
  · obtain ⟨hmem, rfl⟩ := lookup_mem hrow
    exact ⟨by rw [encode_of_row b w row hmem, List.cons_append], fun _ => wf_of_row cfg b w row hmem⟩
  · exact ⟨rfl, fun _ => by simpa [Instr.wf] using (mem_of_illegalNop hentry).1⟩

/-- Settles O3: each word decodes by computation. -/
theorem specWordsDecode : Obligations.SpecWordsDecode :=
  ⟨rfl, rfl, rfl, rfl, rfl, rfl, rfl, rfl⟩

/-- Settles O4: the counts by computation, and the bytes without a row in both directions. -/
theorem dispatchTableAndUndefinedBytesCoverEveryByte :
    Obligations.DispatchTableAndUndefinedBytesCoverEveryByte :=
  ⟨by decide +kernel, by decide +kernel, by decide +kernel, by decide +kernel, by decide +kernel, fun op =>
    ⟨mem_undefinedOpcodes_of_lookup op, lookup_of_mem_undefinedOpcodes op⟩⟩

/-! ### Fetch -/

namespace Machine

/-- An encoding has one to three bytes (R33). -/
theorem encode_length_le (i : Instr) : (encode i).length ≤ 3 := by
  cases instr_case i with
  | illegal => exact (by decide : 1 ≤ 3)
  | @row _ _ _ row b w hbytes hrow hinstr h =>
    rw [hinstr, encode_of_row b w row (lookup_mem hrow).1]
    cases row.form <;> simp [Form.operandBytes]

/-- The bytes that fetch reads. -/
theorem fetchWindow_getElem? (s : State) : ∀ k < 3, s.fetchWindow[k]? = some (s.memRead (s.pc + BitVec.ofNat 16 k)) := by
  intro k hk
  interval_cases k
  · exact congrArg (fun a => some (s.memRead a)) (BitVec.add_zero s.pc).symm
  · rfl
  · rfl

/-- If memory holds an encoding from `pc` on, the window that fetch reads begins with it. -/
theorem fetchWindow_eq_encode_append {s : State} {i : Instr}
    (h : ∀ k : Nat, k < (encode i).length → s.memRead (s.pc + BitVec.ofNat 16 k) = (encode i).getD k 0) :
    ∃ rest, s.fetchWindow = encode i ++ rest := by
  have hpre : encode i = s.fetchWindow.take (encode i).length := by
    refine List.ext_getElem? fun k => ?_
    by_cases hk : k < (encode i).length
    · rw [List.getElem?_take_of_lt hk, fetchWindow_getElem? s k (hk.trans_le (encode_length_le i)), h k hk]
      simp [List.getD, hk]
    · rw [List.getElem?_eq_none (by omega), List.getElem?_eq_none (by simp; omega)]
  exact ⟨_, (List.take_append_drop (encode i).length s.fetchWindow).symm.trans (by rw [← hpre])⟩

/-- Settles O8: the window that fetch reads begins with the encoding, which decodes to the instruction. -/
theorem memoryBytesRunTheirInstruction : Obligations.MemoryBytesRunTheirInstruction := by
  intro cfg s i hcfg hi hs hbytes
  obtain ⟨rest, hwindow⟩ := fetchWindow_eq_encode_append hbytes
  exact stepWith_of_fetchInstr hs
    (fetchInstr_of_decode (hwindow ▸ decodeOfEncodeIsInstruction cfg i rest hcfg hi))

/-- Settles O7: fetch decodes the three bytes, and `exec` runs what they decode to. -/
theorem stepRunsDecodedInstruction : Obligations.StepRunsDecodedInstruction :=
  ⟨fun _ _ _ _ hs h => stepWith_of_fetchInstr hs (fetchInstr_of_decode h), fun _ => rfl⟩

/-! ### The hook that places a table word (log 9) -/

/-- Three bytes stored from `pc` on are the window that fetch reads. -/
theorem fetchWindow_storeBytes {s : State} (hwf : s.memory.wf = true) (x y z : Byte) :
    (s.storeBytes s.pc [x, y, z]).fetchWindow = [x, y, z] := by
  have hwf1 := s.memWrite_wf s.pc x hwf
  have hwf2 := State.memWrite_wf _ (s.pc + 1) y hwf1
  have hpc : s.pc + 1 + 1 = s.pc + 2 := BitVec.add_assoc _ _ _
  have h01 : s.pc ≠ s.pc + 1 := by simp
  have h02 : s.pc ≠ s.pc + 2 := by simp
  have h12 : s.pc + 1 ≠ s.pc + 2 := by simp
  simp only [State.fetchWindow, State.storeBytes, State.memWrite_pc, hpc, State.memRead_memWrite_ne _ _ h01,
    State.memRead_memWrite_ne _ _ h02, State.memRead_memWrite_ne _ _ h12, State.memRead_memWrite_same _ _ _ hwf,
    State.memRead_memWrite_same _ _ _ hwf1, State.memRead_memWrite_same _ _ _ hwf2]

theorem decode_of_decodeTableWord {nbits w : Nat} {i : Instr} (h : decodeTableWord nbits w = some i) :
    ∃ rest, decode Config.default (tableBytes nbits w) = .ok (i, rest) := by
  cases hd : decode Config.default (tableBytes nbits w) with
  | ok r => simp only [decodeTableWord, hd] at h; cases h; exact ⟨r.2, rfl⟩
  | error e => simp [decodeTableWord, hd] at h

/-- Settles O9: the hook puts the word's bytes where fetch reads, and the loop in Fetch. -/
theorem fetchWordRunsTableInstruction : Obligations.FetchWordRunsTableInstruction := by
  intro s nbits w i hwf hi
  obtain ⟨rest, hdecode⟩ := decode_of_decodeTableWord hi
  have hwindow : (s.withFetchWord nbits w).fetchWindow = tableBytes nbits w := fetchWindow_storeBytes hwf _ _ _
  exact stepWith_of_fetchInstr rfl (fetchInstr_of_decode (hwindow ▸ hdecode))

end Machine

end Sys2Proof
end

section
/-! PROOFS. The family `49_dispatch_loop.md`: what a step answers in Fetch and in Halted (R130, R137, R138), and the derived
runs (R140). -/

namespace Sys2Proof.Machine

open Claims

/-! ### Halted -/

theorem stepWith_of_halted {cfg : Config} {s : State} {f : Fault} (h : s.run = .halted f) :
    stepWith cfg s = .fault f := by
  simp [stepWith, h]

theorem stepReturn_of_halted {cfg : Config} {s : State} {f : Fault} (h : s.run = .halted f) :
    stepReturn cfg s = some (s, .err f) := by
  simp [stepReturn, stepWith_of_halted h]

theorem runN_of_halted {cfg : Config} {s : State} {f : Fault} (h : s.run = .halted f) (n : Nat) : runN cfg n s = s := by
  induction n with
  | zero => rfl
  | succ n ih => rw [runN_succ, stepState_of_halted h, ih]

/-- Settles O14: a step in Halted leaves the state, so every run from there does. -/
theorem haltedIsFixedPoint : Obligations.HaltedIsFixedPoint :=
  fun _ _ _ h => ⟨stepWith_of_halted h, stepReturn_of_halted h, runN_of_halted h⟩

/-! ### Fetch -/

/-- A step that raises a fault returns it (R139). -/
theorem stepReturn_of_next_halted {cfg : Config} {s t : State} {f : Fault} (h : stepWith cfg s = .next t)
    (ht : t.run = .halted f) : stepReturn cfg s = some (t, .err f) := by
  simp [stepReturn, h, ht]

/-- A step that answers a next state has a result value (R139). -/
theorem stepReturn_of_next {cfg : Config} {s t : State} (h : stepWith cfg s = .next t) :
    ∃ r, stepReturn cfg s = some (t, r) := by
  cases ht : t.run with
  | fetch => exact ⟨.ok (t.cycle - s.cycle), by simp [stepReturn, h, ht]⟩
  | halted f => exact ⟨.err f, stepReturn_of_next_halted h ht⟩

/-- Settles O15: in Fetch because every instruction answers a next state, in Halted because the loop answers the fault. -/
theorem stepAlwaysAnswers : Obligations.StepAlwaysAnswers := by
  refine fun cfg s => ⟨stepWith_next, ?_⟩
  cases hs : s.run with
  | fetch =>
    obtain ⟨t, ht⟩ := stepWith_next (cfg := cfg) hs
    exact ⟨t, stepReturn_of_next ht⟩
  | halted f => exact ⟨s, .err f, stepReturn_of_halted hs⟩

/-- A byte without a row and without an entry in `ILLEGAL_NOPS` is no instruction (R37). -/
theorem fetchInstr_eq_none {cfg : Config} {s : State} (hundef : s.memRead s.pc ∈ undefinedOpcodes)
    (hentry : ∀ e ∈ cfg.illegalNops, e.1 ≠ s.memRead s.pc) : fetchInstr cfg s = none := by
  have hrow := lookup_of_mem_undefinedOpcodes _ hundef
  have hnone : illegalNop cfg (s.memRead s.pc) = none := List.find?_eq_none.mpr fun e he => by simpa using hentry e he
  simp [fetchInstr, State.fetchWindow, decode_of_no_row _ hrow, hnone]

/-- Settles O5: fetch finds no instruction, so the loop raises the fault. -/
theorem unimplementedOpcodeHalts : Obligations.UnimplementedOpcodeHalts := by
  intro cfg s hs hundef hentry
  have hstep : stepWith cfg s = .next (s.raise (.unimplementedOpcode (s.memRead s.pc) s.pc)) := by
    simp [stepWith, hs, fetchInstr_eq_none hundef hentry]
  exact ⟨hstep, stepReturn_of_next_halted hstep rfl⟩

/-! ### The derived runs -/

theorem stepState_of_stepReturn {cfg : Config} {s t : State} {r : StepResult} (h : stepReturn cfg s = some (t, r)) :
    stepState cfg s = t := by
  obtain ⟨f, hs, rfl, -⟩ | ⟨-, hstep, -⟩ := stepReturn_cases h
  · exact stepState_of_halted hs
  · exact stepState_of_next hstep

theorem runN_add (cfg : Config) (m n : Nat) (s : State) : runN cfg (m + n) s = runN cfg n (runN cfg m s) := by
  induction m generalizing s with
  | zero => rw [Nat.zero_add, runN_zero]
  | succ m ih => rw [Nat.succ_add, runN_succ, runN_succ, ih]

/-- `t` is the Halted state that the run from `s` reaches first, after `n` steps. -/
def HaltsAfter (cfg : Config) (n : Nat) (s t : State) : Prop :=
  runN cfg n s = t ∧ (∃ f, t.run = .halted f) ∧ ∀ k, k < n → (runN cfg k s).run = .fetch

/-- In Fetch the run halts one step later than the run from the next state. -/
theorem haltsAfter_succ_iff {cfg : Config} {n : Nat} {s t : State} :
    HaltsAfter cfg (n + 1) s t ↔ s.run = .fetch ∧ HaltsAfter cfg n (stepState cfg s) t := by
  constructor
  · exact fun ⟨ht, hf, hk⟩ => ⟨hk 0 n.succ_pos, ht, hf, fun k hkn => hk (k + 1) (Nat.succ_lt_succ hkn)⟩
  · refine fun ⟨hs, ht, hf, hk⟩ => ⟨ht, hf, fun k hkn => ?_⟩
    cases k with
    | zero => exact hs
    | succ k => exact hk k (Nat.lt_of_succ_lt_succ hkn)

/-- With enough fuel `run_until_halt` finds the state in which the run halts. -/
theorem runUntilHaltWithin_of_haltsAfter {cfg : Config} {n : Nat} {s t : State} (h : HaltsAfter cfg n s t) :
    runUntilHaltWithin cfg n s = some t := by
  induction n generalizing s with
  | zero =>
    obtain ⟨rfl, ⟨f, hf⟩, -⟩ := h
    exact runUntilHaltWithin_halted 0 hf
  | succ n ih =>
    obtain ⟨hs, hnext⟩ := haltsAfter_succ_iff.mp h
    rw [runUntilHaltWithin_fetch_succ n hs, ih hnext]

/-- What `run_until_halt` finds is the state in which the run halts. -/
theorem haltsAfter_of_runUntilHaltWithin {cfg : Config} {fuel : Nat} {s t : State}
    (h : runUntilHaltWithin cfg fuel s = some t) : ∃ n, HaltsAfter cfg n s t := by
  induction fuel generalizing s with
  | zero =>
    cases hs : s.run with
    | fetch => simp [runUntilHaltWithin_fetch_zero hs] at h
    | halted f =>
      rw [runUntilHaltWithin_halted 0 hs] at h
      cases h
      exact ⟨0, rfl, ⟨f, hs⟩, fun k hk => absurd hk k.not_lt_zero⟩
  | succ fuel ih =>
    cases hs : s.run with
    | fetch =>
      rw [runUntilHaltWithin_fetch_succ fuel hs] at h
      obtain ⟨n, hn⟩ := ih h
      exact ⟨n + 1, haltsAfter_succ_iff.mpr ⟨hs, hn⟩⟩
    | halted f =>
      rw [runUntilHaltWithin_halted _ hs] at h
      cases h
      exact ⟨0, rfl, ⟨f, hs⟩, fun k hk => absurd hk k.not_lt_zero⟩

theorem runUntilHalt_iff {cfg : Config} {s t : State} : RunUntilHalt cfg s t ↔ ∃ n, HaltsAfter cfg n s t :=
  ⟨fun ⟨_, h⟩ => haltsAfter_of_runUntilHaltWithin h, fun ⟨n, h⟩ => ⟨n, runUntilHaltWithin_of_haltsAfter h⟩⟩

/-- More fuel gives the same answer, so two fuels give one. -/
theorem runUntilHalt_unique {cfg : Config} {s t u : State} (ht : RunUntilHalt cfg s t) (hu : RunUntilHalt cfg s u) :
    t = u := by
  obtain ⟨m, hm⟩ := ht
  obtain ⟨n, hn⟩ := hu
  have hm' := runUntilHaltWithin_mono (Nat.le_max_left m n) hm
  have hn' := runUntilHaltWithin_mono (Nat.le_max_right m n) hn
  exact Option.some.inj (hm'.symm.trans hn')

/-- A run that leaves Fetch halts: at the least number of steps after which it is not in Fetch. -/
theorem exists_haltsAfter {cfg : Config} {s : State} (h : ∃ n, (runN cfg n s).run ≠ .fetch) :
    ∃ n t, HaltsAfter cfg n s t := by
  classical
  refine ⟨Nat.find h, _, rfl, ?_, fun k hk => not_not.mp (Nat.find_min h hk)⟩
  cases hrun : (runN cfg (Nat.find h) s).run with
  | fetch => exact absurd hrun (Nat.find_spec h)
  | halted f => exact ⟨f, rfl⟩

theorem not_runUntilHalt_iff {cfg : Config} {s : State} :
    (¬∃ t, RunUntilHalt cfg s t) ↔ ∀ n, (runN cfg n s).run = .fetch := by
  constructor
  · intro h n
    by_contra hn
    obtain ⟨m, t, ht⟩ := exists_haltsAfter ⟨n, hn⟩
    exact h ⟨t, runUntilHalt_iff.mpr ⟨m, ht⟩⟩
  · rintro h ⟨t, ht⟩
    obtain ⟨n, rfl, ⟨f, hf⟩, -⟩ := runUntilHalt_iff.mp ht
    rw [h n] at hf
    cases hf

/-- Settles O16: the value of `run_until_halt` is the state in which the run halts first (`HaltsAfter`). -/
theorem runUntilHaltIteratesStepInFetch : Obligations.RunUntilHaltIteratesStepInFetch := by
  refine fun cfg s => ⟨rfl, fun t r h n => ?_, fun m n => runN_add cfg m n s, fun t => runUntilHalt_iff,
    fun t u => runUntilHalt_unique, not_runUntilHalt_iff⟩
  rw [runN_succ, stepState_of_stepReturn h]

end Sys2Proof.Machine
end

section
/-! PROOFS. The family `60_exceptions.md`: faults are precise and atomic (R147), only eight mnemonics raise one (R142), and
the stack faults are raised before any write (R144, R145). -/

namespace Sys2Proof.Machine

open Claims

/-- The mnemonics that push (R144) and those that pop (R145). -/
def pushMnemonics : List String := ["PHA", "PHP", "JSR", "BRK"]
def popMnemonics : List String := ["PLA", "PLP", "RTS", "RTI"]

/-- `t` is `s` with the stack fault recorded that the mnemonic can raise (R142). -/
def StackFault (mnemonic : String) (s t : State) : Prop :=
  (t = s.raise .stackOverflow ∧ mnemonic ∈ pushMnemonics) ∨ (t = s.raise .stackUnderflow ∧ mnemonic ∈ popMnemonics)

theorem stackFault_of_push {mnemonic n : String} {s : State} (h : mnemonic = n) (hn : n ∈ pushMnemonics := by decide) :
    StackFault mnemonic s (s.raise .stackOverflow) := .inl ⟨rfl, h ▸ hn⟩

theorem stackFault_of_pop {mnemonic n : String} {s : State} (h : mnemonic = n) (hn : n ∈ popMnemonics := by decide) :
    StackFault mnemonic s (s.raise .stackUnderflow) := .inr ⟨rfl, h ▸ hn⟩

section
variable {row : Row} {i : Instr} {s t : State}

/-- An instruction of the table leaves the loop as it was, or raises its stack fault and changes nothing else. -/
theorem RowMeaning.outcome {m : State → Host.Outcome State Fault Refusal} (h : RowMeaning row i m)
    (ht : m s = .next t) : t.run = s.run ∨ StackFault row.mnemonic s t := by
  cases h with
  | read h => cases ht; exact .inl (h.effect.run _)
  | store | jump => cases ht; exact .inl rfl
  | modify => cases ht; exact .inl (Place.writeback_run _ _)
  | implied h => cases ht; exact .inl (h.effect.keeps_control s).2.2
  | branch => exact .inl (branchInstr_outcome ht).1
  | jsr _ h =>
    obtain ⟨-, rfl⟩ | ⟨-, -, -, rfl⟩ := execJsr_cases ht
    · exact .inr (stackFault_of_push h)
    · exact .inl rfl
  | rts h =>
    obtain ⟨-, rfl⟩ | ⟨-, -, -, rfl⟩ := execRts_cases ht
    · exact .inr (stackFault_of_pop h)
    · exact .inl rfl
  | brk h =>
    obtain ⟨-, rfl⟩ | ⟨-, -, -, -, rfl⟩ := execBrk_cases ht
    · exact .inr (stackFault_of_push h)
    · exact .inl rfl
  | rti h =>
    obtain ⟨-, rfl⟩ | ⟨-, -, -, -, rfl⟩ := execRti_cases ht
    · exact .inr (stackFault_of_pop h)
    · exact .inl rfl
  | pha h | php h =>
    obtain ⟨-, rfl⟩ | ⟨-, -, rfl⟩ := execPush_cases ht
    · exact .inr (stackFault_of_push h)
    · exact .inl rfl
  | pla h =>
    obtain ⟨-, rfl⟩ | ⟨-, -, rfl⟩ := execPla_cases ht
    · exact .inr (stackFault_of_pop h)
    · exact .inl rfl
  | plp h =>
    obtain ⟨-, rfl⟩ | ⟨-, -, rfl⟩ := execPlp_cases ht
    · exact .inr (stackFault_of_pop h)
    · exact .inl rfl

/-- Every instruction leaves the loop as it was, or raises its stack fault and changes nothing else. -/
theorem exec_outcome (ht : exec i s = .next t) : t.run = s.run ∨ StackFault (mnemonicOf i) s t := by
  cases instr_case i with
  | illegal => cases ht; exact .inl rfl
  | row b w hbytes hrow _ h => rw [mnemonicOf_of_lookup hbytes hrow]; exact h.outcome ht

end

/-- Settles O18: the loop leaves Fetch only by a stack fault of the mnemonic. -/
theorem onlyStackInstructionsFault : Obligations.OnlyStackInstructionsFault := by
  intro i s t f hs ht hf
  obtain hrun | ⟨rfl, hmem⟩ | ⟨rfl, hmem⟩ := exec_outcome ht
  · rw [hrun, hs] at hf; cases hf
  · cases hf; exact .inl ⟨rfl, hmem⟩
  · cases hf; exact .inr ⟨rfl, hmem⟩

/-- What a step that returns a fault has done: nothing in Halted, in Fetch it raised a stack fault or UnimplementedOpcode
with the byte at `pc` (R138, R142, R143). -/
theorem stepReturn_err_cases {cfg : Config} {s t : State} {f : Fault} (h : stepReturn cfg s = some (t, .err f)) :
    (s.run = .halted f ∧ t = s) ∨
    (s.run = .fetch ∧ t = s.raise f ∧
      (f = .stackOverflow ∨ f = .stackUnderflow ∨ f = .unimplementedOpcode (s.memRead s.pc) s.pc)) := by
  obtain ⟨g, hs, rfl, hg⟩ | ⟨hs, hstep, ⟨-, hok⟩ | ⟨g, ht, hg⟩⟩ := stepReturn_cases h
  · cases hg; exact .inl ⟨hs, rfl⟩
  · cases hok
  · cases hg
    obtain ⟨-, ⟨i, -, hexec⟩ | ⟨-, rfl⟩⟩ := stepWith_cases hstep
    · obtain hrun | ⟨rfl, -⟩ | ⟨rfl, -⟩ := exec_outcome hexec
      · rw [hrun, hs] at ht; cases ht
      · cases ht; exact .inr ⟨hs, rfl, .inl rfl⟩
      · cases ht; exact .inr ⟨hs, rfl, .inr (.inl rfl)⟩
    · cases ht; exact .inr ⟨hs, rfl, .inr (.inr rfl)⟩

/-- Settles O17, by the cases of `stepReturn_err_cases`. -/
theorem faultingStepChangesOnlyRun : Obligations.FaultingStepChangesOnlyRun := by
  intro cfg s t f h
  obtain ⟨hs, rfl⟩ | ⟨-, rfl, hf⟩ := stepReturn_err_cases h
  · refine ⟨by rw [← hs], by simp [State.fault, hs], fun op a hfetch => ?_⟩
    rw [hs] at hfetch; cases hfetch
  · refine ⟨rfl, rfl, fun op a _ hop => ?_⟩
    obtain rfl | rfl | rfl := hf <;> cases hop
    exact ⟨rfl, rfl⟩

/-! ### The bounds of the stack -/

section
variable {i : Instr} {s : State} {n : Nat}

/-- An instruction that pushes `n` bytes raises StackOverflow exactly when they do not fit, and else leaves `S` that much
larger. -/
theorem overflows_iff_too_full (hs : s.run = .fetch)
    (hcases : ∀ t, exec i s = .next t → (255 < s.S.toNat + n ∧ t = s.raise .stackOverflow) ∨
      (s.S.toNat + n ≤ 255 ∧ t.run = s.run ∧ t.S.toNat = s.S.toNat + n)) :
    (s.S.toNat + n > 255 → exec i s = .next (s.raise .stackOverflow)) ∧
    (s.S.toNat + n ≤ 255 → ∃ t, exec i s = .next t ∧ t.run = .fetch ∧ t.S.toNat = s.S.toNat + n) := by
  obtain ⟨t, ht⟩ := exec_next i s
  obtain ⟨hS, rfl⟩ | ⟨hS, hrun, hgrown⟩ := hcases t ht
  · exact ⟨fun _ => ht, fun hfits => absurd hfits hS.not_ge⟩
  · exact ⟨fun hfull => absurd hfull hS.not_gt, fun _ => ⟨t, ht, hrun.trans hs, hgrown⟩⟩

/-- An instruction that pops `n` bytes raises StackUnderflow exactly when fewer are on the stack, and else leaves `S` that
much smaller. -/
theorem underflows_iff_too_empty (hs : s.run = .fetch)
    (hcases : ∀ t, exec i s = .next t → (s.S.toNat < n ∧ t = s.raise .stackUnderflow) ∨
      (n ≤ s.S.toNat ∧ t.run = s.run ∧ t.S.toNat = s.S.toNat - n)) :
    (s.S.toNat < n → exec i s = .next (s.raise .stackUnderflow)) ∧
    (n ≤ s.S.toNat → ∃ t, exec i s = .next t ∧ t.run = .fetch ∧ t.S.toNat + n = s.S.toNat) := by
  obtain ⟨t, ht⟩ := exec_next i s
  obtain ⟨hS, rfl⟩ | ⟨hS, hrun, hless⟩ := hcases t ht
  · exact ⟨fun _ => ht, fun hfits => absurd hfits hS.not_ge⟩
  · exact ⟨fun hempty => absurd hempty hS.not_gt, fun _ => ⟨t, ht, hrun.trans hs, by omega⟩⟩

end

/-- Settles O55: each instruction by the lemma that says everything it can do. -/
theorem stackFaultsCheckBeforeWriting : Obligations.StackFaultsCheckBeforeWriting := by
  intro w s hs
  simp only [List.forall_mem_cons]
  refine ⟨⟨?pha, ?php, ?jsr, ?brk, List.forall_mem_nil _⟩, ?pla, ?plp, ?rts, ?rti, List.forall_mem_nil _⟩
  case pha | php =>
    refine overflows_iff_too_full hs fun t ht => ?_
    obtain ⟨hS, rfl⟩ | ⟨hS, hS1, rfl⟩ := execPush_cases ht
    · exact .inl ⟨by omega, rfl⟩
    · exact .inr ⟨hS, rfl, hS1⟩
  case jsr =>
    refine overflows_iff_too_full hs fun t ht => ?_
    obtain ⟨hS, rfl⟩ | ⟨hS, -, hS2, rfl⟩ := execJsr_cases ht
    · exact .inl ⟨by omega, rfl⟩
    · exact .inr ⟨by omega, rfl, hS2⟩
  case brk =>
    refine overflows_iff_too_full hs fun t ht => ?_
    obtain ⟨hS, rfl⟩ | ⟨hS, -, -, hS3, rfl⟩ := execBrk_cases ht
    · exact .inl ⟨by omega, rfl⟩
    · exact .inr ⟨by omega, rfl, hS3⟩
  case pla =>
    refine underflows_iff_too_empty hs fun t ht => ?_
    obtain ⟨hS, rfl⟩ | ⟨hS, hS1, rfl⟩ := execPla_cases ht
    · exact .inl ⟨by omega, rfl⟩
    · exact .inr ⟨hS, rfl, hS1⟩
  case plp =>
    refine underflows_iff_too_empty hs fun t ht => ?_
    obtain ⟨hS, rfl⟩ | ⟨hS, hS1, rfl⟩ := execPlp_cases ht
    · exact .inl ⟨by omega, rfl⟩
    · exact .inr ⟨hS, rfl, hS1⟩
  case rts =>
    refine underflows_iff_too_empty hs fun t ht => ?_
    obtain ⟨hS, rfl⟩ | ⟨hS, -, hS2, rfl⟩ := execRts_cases ht
    · exact .inl ⟨hS, rfl⟩
    · exact .inr ⟨hS, rfl, hS2⟩
  case rti =>
    refine underflows_iff_too_empty hs fun t ht => ?_
    obtain ⟨hS, rfl⟩ | ⟨hS, -, -, hS3, rfl⟩ := execRti_cases ht
    · exact .inl ⟨hS, rfl⟩
    · exact .inr ⟨hS, rfl, hS3⟩

end Sys2Proof.Machine
end

section
/-! PROOFS. What an instruction leaves unchanged, by its row: the program counter but for its length (R135), memory but for the
operand stored to (R24), the stack (R12), the registers (R9) and the flags (R10). -/

namespace Sys2Proof.Machine

open Claims

/-! ### The program counter -/

/-- A branch whose mnemonic is not taken (R91) does not have its condition. -/
theorem BranchMnemonic.branchTaken_eq {n : String} {cond : State → Bool} (h : BranchMnemonic n cond) (s : State) :
    branchTaken n s = cond s := by
  cases h <;> simp only [test_eq_getLsbD] <;> rfl

theorem add_ofNat_toNat (a : Addr) (len : Nat) : (a + BitVec.ofNat 16 len).toNat = (a.toNat + len) % 65536 := by
  rw [BitVec.toNat_add, BitVec.toNat_ofNat, Nat.add_mod_mod]

/-- An instruction of the table whose rule assigns no `pc` moves it past its bytes, or raises its stack fault. -/
theorem RowMeaning.pc {row : Row} {i : Instr} {m : State → Host.Outcome State Fault Refusal} {s t : State}
    (h : RowMeaning row i m) (ht : m s = .next t) (hjump : row.mnemonic ∉ jumpMnemonics)
    (hbranch : branchTaken row.mnemonic s = false) :
    t.pc = s.pc + BitVec.ofNat 16 (encode i).length ∨ ∃ f, t.run = .halted f := by
  cases h with
  | read h _ hlen => cases ht; rw [← hlen, State.advance_pc, (h.effect.keeps_control s _).1]; exact .inl rfl
  | store _ _ hlen => cases ht; rw [← hlen]; exact .inl rfl
  | modify _ _ _ hlen => cases ht; rw [← hlen, State.advance_pc, State.setP_pc, Place.writeback_pc]; exact .inl rfl
  | implied h hlen => cases ht; rw [hlen, State.advance_pc, (h.effect.keeps_control s).1]; exact .inl rfl
  | @branch _ cond h d hlen =>
    have hnext : branchInstr (cond s) d s = .next t := ht
    rw [← h.branchTaken_eq s, hbranch] at hnext
    cases hnext; rw [hlen]; exact .inl rfl
  | jump h | jsr _ h | rts h | brk h | rti h => rw [h] at hjump; exact absurd (by decide) hjump
  | pha | php => obtain ⟨-, rfl⟩ | ⟨-, -, rfl⟩ := execPush_cases ht; exacts [.inr ⟨_, rfl⟩, .inl rfl]
  | pla => obtain ⟨-, rfl⟩ | ⟨-, -, rfl⟩ := execPla_cases ht; exacts [.inr ⟨_, rfl⟩, .inl rfl]
  | plp => obtain ⟨-, rfl⟩ | ⟨-, -, rfl⟩ := execPlp_cases ht; exacts [.inr ⟨_, rfl⟩, .inl rfl]

/-- Settles O21: an illegal NOP has one byte, and an instruction of the table the bytes of its operand. -/
theorem programCounterAdvancesByLength : Obligations.ProgramCounterAdvancesByLength := by
  intro i s t hs ht hrun hjump hbranch
  rw [← add_ofNat_toNat]
  cases instr_case i with
  | illegal => cases ht; rfl
  | row b w hbytes hrow _ h =>
    rw [mnemonicOf_of_lookup hbytes hrow] at hjump hbranch
    obtain hpc | ⟨f, hf⟩ := h.pc ht hjump hbranch
    · rw [hpc]
    · rw [hrun] at hf; cases hf

/-- Everything a branch can do but for the values of `pc` and `cycle` (R91). -/
theorem branchInstr_cases {cond : Bool} {d : Byte} {s t : State} (ht : branchInstr cond d s = .next t) :
    ∃ pc cycle, t = { s with pc := pc, cycle := cycle } := by
  obtain ⟨pc, cycle, h⟩ := branchInstr_next cond d s
  rw [h] at ht
  cases ht
  exact ⟨pc, cycle, rfl⟩

/-! ### Memory -/

theorem ReadEffect.memory {e : State → Byte → State} (h : ReadEffect e) (s : State) (v : Byte) :
    (e s v).memory = s.memory := by
  cases h <;> rfl

theorem ImpliedEffect.memory {e : State → State} (h : ImpliedEffect e) (s : State) : (e s).memory = s.memory := by
  cases h <;> rfl

theorem StoreMnemonic.storing {n : String} {v : State → Byte} (h : StoreMnemonic n v) : n ∈ storingMnemonics := by
  cases h <;> decide

theorem ModifyMnemonic.storing {n : String} {f : Byte → Byte → Byte × Byte} (h : ModifyMnemonic n f) :
    n ∈ storingMnemonics := by
  cases h <;> decide

/-- An instruction of the table keeps memory, or stores to the memory operand that its row names. -/
theorem RowMeaning.memory {row : Row} {i : Instr} {o : State → Host.Outcome State Fault Refusal} {s t : State}
    (h : RowMeaning row i o) (ht : o s = .next t) :
    t.memory = s.memory ∨ ∃ m v, row.mnemonic ∈ storingMnemonics ∧ memOperandOf row.mode (encode i) = some m ∧
      t.memory = (s.memWrite (m.ea s) v).memory := by
  cases h with
  | read h => cases ht; exact .inl (h.effect.memory s _)
  | store h hm => cases ht; exact .inr ⟨_, _, h.storing, hm, rfl⟩
  | @modify _ f pl h hm =>
    cases ht
    cases pl with
    | accumulator => exact .inl rfl
    | memory m => exact .inr ⟨m, _, h.storing, hm, rfl⟩
  | implied h => cases ht; exact .inl (h.effect.memory s)
  | branch => obtain ⟨_, _, rfl⟩ := branchInstr_cases ht; exact .inl rfl
  | jump => cases ht; exact .inl rfl
  | jsr => obtain ⟨-, rfl⟩ | ⟨-, -, -, rfl⟩ := execJsr_cases ht <;> exact .inl rfl
  | rts => obtain ⟨-, rfl⟩ | ⟨-, -, -, rfl⟩ := execRts_cases ht <;> exact .inl rfl
  | brk => obtain ⟨-, rfl⟩ | ⟨-, -, -, -, rfl⟩ := execBrk_cases ht <;> exact .inl rfl
  | rti => obtain ⟨-, rfl⟩ | ⟨-, -, -, -, rfl⟩ := execRti_cases ht <;> exact .inl rfl
  | pha | php => obtain ⟨-, rfl⟩ | ⟨-, -, rfl⟩ := execPush_cases ht <;> exact .inl rfl
  | pla => obtain ⟨-, rfl⟩ | ⟨-, -, rfl⟩ := execPla_cases ht <;> exact .inl rfl
  | plp => obtain ⟨-, rfl⟩ | ⟨-, -, rfl⟩ := execPlp_cases ht <;> exact .inl rfl

/-- Settles O22: the one store is to the operand of the row, and a write leaves every other address alone. -/
theorem memoryChangesOnlyWhereStored : Obligations.MemoryChangesOnlyWhereStored := by
  intro cfg i s t _ _ ht a hother
  cases instr_case i with
  | illegal => cases ht; rfl
  | row b w hbytes hrow _ h =>
    obtain hmem | ⟨m, v, hname, hm, hmem⟩ := h.memory ht
    · rw [State.memRead, hmem]; rfl
    · have hne : a ≠ m.ea s := hother _ m (by rw [hbytes]; exact hrow) hname hm
      rw [State.memRead, hmem]; exact s.memRead_memWrite_ne v hne

/-! ### The stack -/

theorem ReadEffect.stack {e : State → Byte → State} (h : ReadEffect e) (s : State) (v : Byte) :
    (e s v).stack = s.stack ∧ (e s v).S = s.S := by
  cases h <;> exact ⟨rfl, rfl⟩

theorem ImpliedMnemonic.stack {n : String} {e : State → State} (h : ImpliedMnemonic n e) (s : State) :
    (e s).stack = s.stack ∧ ((e s).S = s.S ∨ n = "TXS") := by
  cases h with
  | txs => exact ⟨rfl, .inr rfl⟩
  | _ => exact ⟨rfl, .inl rfl⟩

theorem Place.writeback_stack (pl : Place) (s : State) (r : Byte) :
    (pl.writeback s r).stack = s.stack ∧ (pl.writeback s r).S = s.S := by
  cases pl <;> exact ⟨rfl, rfl⟩

/-- The stack buffer after the bytes of a list of slots are written in turn. -/
def Memory.writeAll (m : Memory) : List (Byte × Byte) → Memory
  | [] => m
  | (i, v) :: ws => (m.write i.toNat v).writeAll ws

/-- Writes to slots above `S` leave the others alone. -/
theorem Memory.read_writeAll {S : Nat} {ws : List (Byte × Byte)} (hws : ∀ w ∈ ws, S < w.1.toNat) (m : Memory) {j : Byte}
    (hj : j.toNat ≤ S) : (m.writeAll ws).read j.toNat = m.read j.toNat := by
  induction ws generalizing m with
  | nil => rfl
  | cons w ws ih =>
    obtain ⟨hw, hws⟩ := List.forall_mem_cons.mp hws
    exact (ih hws _).trans (Memory.read_write_ne _ (by omega))

/-- A predicate that every write to a slot keeps holds after all of them. -/
theorem Memory.writeAll_keeps {p : Memory → Prop} (hwrite : ∀ m (i v : Byte), p m → p (m.write i.toNat v))
    (ws : List (Byte × Byte)) {m : Memory} (hm : p m) : p (m.writeAll ws) := by
  induction ws generalizing m with
  | nil => exact hm
  | cons w ws ih => exact ih (hwrite m w.1 w.2 hm)

/-- The stack buffer of `t` is that of `s` with bytes written above `S`. -/
def PushesAbove (s t : State) : Prop :=
  ∃ ws : List (Byte × Byte), (∀ w ∈ ws, s.S.toNat < w.1.toNat) ∧ t.stack = s.stack.writeAll ws

theorem pushesAbove_of_eq {s t : State} (h : t.stack = s.stack) : PushesAbove s t := ⟨[], List.forall_mem_nil _, h⟩

theorem PushesAbove.stackRead {s t : State} (h : PushesAbove s t) (j : Byte) (hj : j.toNat ≤ s.S.toNat) :
    t.stackRead j = s.stackRead j := by
  obtain ⟨ws, hws, ht⟩ := h
  rw [State.stackRead, ht]
  exact Memory.read_writeAll hws s.stack hj

/-- An instruction of the table keeps the stack buffer and, but for the pops and TXS, `S`; or it pushes, above `S`. -/
theorem RowMeaning.stack {row : Row} {i : Instr} {m : State → Host.Outcome State Fault Refusal} {s t : State}
    (h : RowMeaning row i m) (ht : m s = .next t) :
    (t.stack = s.stack ∧ (t.S = s.S ∨ row.mnemonic ∈ popMnemonics ∨ row.mnemonic = "TXS")) ∨
      (row.mnemonic ∈ pushMnemonics ∧ PushesAbove s t) := by
  cases h with
  | read h => cases ht; obtain ⟨hstack, hS⟩ := h.effect.stack s _; exact .inl ⟨hstack, .inl hS⟩
  | store | jump => cases ht; exact .inl ⟨rfl, .inl rfl⟩
  | modify => cases ht; obtain ⟨hstack, hS⟩ := Place.writeback_stack _ s _; exact .inl ⟨hstack, .inl hS⟩
  | implied h => cases ht; obtain ⟨hstack, hS⟩ := h.stack s; exact .inl ⟨hstack, hS.imp_right .inr⟩
  | branch => obtain ⟨_, _, rfl⟩ := branchInstr_cases ht; exact .inl ⟨rfl, .inl rfl⟩
  | jsr _ h =>
    refine .inr ⟨h ▸ by decide, ?_⟩
    obtain ⟨-, rfl⟩ | ⟨-, hS1, hS2, rfl⟩ := execJsr_cases ht
    · exact pushesAbove_of_eq rfl
    · exact ⟨[(s.S + 1, hi (s.pc + 2)), (s.S + 1 + 1, lo (s.pc + 2))],
        by simp only [List.forall_mem_cons, hS1, hS2]; simp, rfl⟩
  | brk h =>
    refine .inr ⟨h ▸ by decide, ?_⟩
    obtain ⟨-, rfl⟩ | ⟨-, hS1, hS2, hS3, rfl⟩ := execBrk_cases ht
    · exact pushesAbove_of_eq rfl
    · exact ⟨[(s.S + 1, hi (s.pc + 2)), (s.S + 1 + 1, lo (s.pc + 2)), (s.S + 1 + 1 + 1, s.P ||| maskB)],
        by simp only [List.forall_mem_cons, hS1, hS2, hS3]; simp, rfl⟩
  | pha h =>
    refine .inr ⟨h ▸ by decide, ?_⟩
    obtain ⟨-, rfl⟩ | ⟨-, hS1, rfl⟩ := execPush_cases ht
    · exact pushesAbove_of_eq rfl
    · exact ⟨[(s.S + 1, s.A)], by simp only [List.forall_mem_cons, hS1]; simp, rfl⟩
  | php h =>
    refine .inr ⟨h ▸ by decide, ?_⟩
    obtain ⟨-, rfl⟩ | ⟨-, hS1, rfl⟩ := execPush_cases ht
    · exact pushesAbove_of_eq rfl
    · exact ⟨[(s.S + 1, s.P)], by simp only [List.forall_mem_cons, hS1]; simp, rfl⟩
  | rts h =>
    have hpop : row.mnemonic ∈ popMnemonics := h ▸ by decide
    obtain ⟨-, rfl⟩ | ⟨-, -, -, rfl⟩ := execRts_cases ht <;> exact .inl ⟨rfl, .inr (.inl hpop)⟩
  | rti h =>
    have hpop : row.mnemonic ∈ popMnemonics := h ▸ by decide
    obtain ⟨-, rfl⟩ | ⟨-, -, -, -, rfl⟩ := execRti_cases ht <;> exact .inl ⟨rfl, .inr (.inl hpop)⟩
  | pla h =>
    have hpop : row.mnemonic ∈ popMnemonics := h ▸ by decide
    obtain ⟨-, rfl⟩ | ⟨-, -, rfl⟩ := execPla_cases ht <;> exact .inl ⟨rfl, .inr (.inl hpop)⟩
  | plp h =>
    have hpop : row.mnemonic ∈ popMnemonics := h ▸ by decide
    obtain ⟨-, rfl⟩ | ⟨-, -, rfl⟩ := execPlp_cases ht <;> exact .inl ⟨rfl, .inr (.inl hpop)⟩

/-- Settles O23: the pushes write above `S`, the pops and TXS write `S` alone, and nothing else touches the stack. -/
theorem stackChangesOnlyByPushesAboveS : Obligations.StackChangesOnlyByPushesAboveS := by
  intro cfg i s t _ _ ht
  cases instr_case i with
  | illegal => cases ht; exact ⟨fun _ _ => rfl, fun _ => rfl, fun _ => rfl⟩
  | row b w hbytes hrow _ h =>
    rw [mnemonicOf_of_lookup hbytes hrow]
    obtain ⟨hstack, hS⟩ | ⟨hpush, hpushes⟩ := h.stack ht
    · refine ⟨(pushesAbove_of_eq hstack).stackRead, fun _ => hstack, fun hname => ?_⟩
      obtain hS | hpop | htxs := hS
      · exact hS
      · exact absurd (List.mem_append_right pushMnemonics (List.mem_append_left ["TXS"] hpop)) hname
      · rw [htxs] at hname; exact absurd (by decide) hname
    · exact ⟨hpushes.stackRead, absurd hpush, fun hname =>
        absurd (List.mem_append_left (popMnemonics ++ ["TXS"]) hpush) hname⟩

/-! ### The registers -/

/-- The mnemonics that have `A` as destination in every form, and those that have `X` or `Y` (R9). -/
def accumulatorMnemonics : List String := ["ADC", "SBC", "AND", "ORA", "EOR", "LDA", "PLA", "TXA", "TYA"]
def indexXMnemonics : List String := ["LDX", "TAX", "TSX", "INX", "DEX"]
def indexYMnemonics : List String := ["LDY", "TAY", "INY", "DEY"]

/-- `t` has the registers of `s` but for those that the instruction with this mnemonic and these bytes has as destination. -/
def KeepsRegisters (n : String) (bytes : List Byte) (s t : State) : Prop :=
  (n ∉ accumulatorMnemonics → bytes ∉ accumulatorEncodings → t.A = s.A) ∧
  (n ∉ indexXMnemonics → t.X = s.X) ∧ (n ∉ indexYMnemonics → t.Y = s.Y)

theorem keepsRegisters_of_eq {n : String} {bytes : List Byte} {s t : State} (hA : t.A = s.A) (hX : t.X = s.X) (hY : t.Y = s.Y) :
    KeepsRegisters n bytes s t :=
  ⟨fun _ _ => hA, fun _ => hX, fun _ => hY⟩

theorem ReadMnemonic.registers {n : String} {e : State → Byte → State} (h : ReadMnemonic n e) (bytes : List Byte)
    (s : State) (v : Byte) : KeepsRegisters n bytes s (e s v) := by
  cases h with
  | adc | sbc | and | ora | eor | lda => exact ⟨fun hn => absurd (by decide) hn, fun _ => rfl, fun _ => rfl⟩
  | ldx => exact ⟨fun _ _ => rfl, fun hn => absurd (by decide) hn, fun _ => rfl⟩
  | ldy => exact ⟨fun _ _ => rfl, fun _ => rfl, fun hn => absurd (by decide) hn⟩
  | bit | cmp | cpx | cpy => exact keepsRegisters_of_eq rfl rfl rfl

theorem ImpliedMnemonic.registers {n : String} {e : State → State} (h : ImpliedMnemonic n e) (bytes : List Byte) (s : State) :
    KeepsRegisters n bytes s (e s) := by
  cases h with
  | txa | tya => exact ⟨fun hn => absurd (by decide) hn, fun _ => rfl, fun _ => rfl⟩
  | dex | inx | tax | tsx => exact ⟨fun _ _ => rfl, fun hn => absurd (by decide) hn, fun _ => rfl⟩
  | dey | iny | tay => exact ⟨fun _ _ => rfl, fun _ => rfl, fun hn => absurd (by decide) hn⟩
  | txs | clc | sec | cli | sei | clv | cld | sed | nop => exact keepsRegisters_of_eq rfl rfl rfl

/-- The write back to memory keeps the registers, the one to the accumulator all but `A`. -/
theorem Place.writeback_registers {n : String} {pl : Place} {bytes : List Byte}
    (hpl : pl = .accumulator → bytes ∈ accumulatorEncodings) (s : State) (r : Byte) :
    KeepsRegisters n bytes s (pl.writeback s r) := by
  cases pl with
  | accumulator => exact ⟨fun _ hbytes => absurd (hpl rfl) hbytes, fun _ => rfl, fun _ => rfl⟩
  | memory => exact keepsRegisters_of_eq rfl rfl rfl

/-- An instruction of the table keeps every register but its destination. -/
theorem RowMeaning.registers {row : Row} {i : Instr} {m : State → Host.Outcome State Fault Refusal} {s t : State}
    (h : RowMeaning row i m) (ht : m s = .next t) : KeepsRegisters row.mnemonic (encode i) s t := by
  cases h with
  | read h => cases ht; exact h.registers _ s _
  | store | jump => cases ht; exact keepsRegisters_of_eq rfl rfl rfl
  | modify _ _ hpl => cases ht; exact Place.writeback_registers hpl s _
  | implied h => cases ht; exact h.registers _ s
  | branch => obtain ⟨_, _, rfl⟩ := branchInstr_cases ht; exact keepsRegisters_of_eq rfl rfl rfl
  | jsr => obtain ⟨-, rfl⟩ | ⟨-, -, -, rfl⟩ := execJsr_cases ht <;> exact keepsRegisters_of_eq rfl rfl rfl
  | rts => obtain ⟨-, rfl⟩ | ⟨-, -, -, rfl⟩ := execRts_cases ht <;> exact keepsRegisters_of_eq rfl rfl rfl
  | brk => obtain ⟨-, rfl⟩ | ⟨-, -, -, -, rfl⟩ := execBrk_cases ht <;> exact keepsRegisters_of_eq rfl rfl rfl
  | rti => obtain ⟨-, rfl⟩ | ⟨-, -, -, -, rfl⟩ := execRti_cases ht <;> exact keepsRegisters_of_eq rfl rfl rfl
  | pha | php => obtain ⟨-, rfl⟩ | ⟨-, -, rfl⟩ := execPush_cases ht <;> exact keepsRegisters_of_eq rfl rfl rfl
  | plp => obtain ⟨-, rfl⟩ | ⟨-, -, rfl⟩ := execPlp_cases ht <;> exact keepsRegisters_of_eq rfl rfl rfl
  | pla h =>
    obtain ⟨-, rfl⟩ | ⟨-, -, rfl⟩ := execPla_cases ht
    · exact keepsRegisters_of_eq rfl rfl rfl
    · exact ⟨fun hn => absurd (h ▸ by decide) hn, fun _ => rfl, fun _ => rfl⟩

/-- Settles O24: each rule writes its mnemonic's destination, and a shift or rotate the place it names. -/
theorem registersChangeOnlyByTheirWriters : Obligations.RegistersChangeOnlyByTheirWriters := by
  intro cfg i s t _ _ ht
  cases instr_case i with
  | illegal => cases ht; exact keepsRegisters_of_eq rfl rfl rfl
  | row b w hbytes hrow _ h => rw [mnemonicOf_of_lookup hbytes hrow]; exact h.registers ht

/-! ### The flags -/

/-- `t` has the bits of `P` of `s` that do not have the mnemonic as a writer. -/
def KeepsUnwrittenFlags (n : String) (s t : State) : Prop :=
  ∀ k : Nat, k < 8 → k ≠ 5 → n ∉ flagWriters k → flagBit t k = flagBit s k

theorem keepsUnwrittenFlags_of_eq {n : String} {s t : State} (h : t.P = s.P) : KeepsUnwrittenFlags n s t :=
  fun k _ _ _ => by rw [flagBit, h]; rfl

/-- A rule keeps the flags it does not write if the table of R10 has its mnemonic as a writer of all others. -/
theorem KeepsUnwrittenFlags.of_keepsFlags {n : String} {bits : List Nat} {s t : State} (h : KeepsFlags bits s t)
    (hbits : ∀ k < 8, k ≠ 5 → n ∉ flagWriters k → k ∈ bits) : KeepsUnwrittenFlags n s t :=
  fun k hk h5 hn => h.1 k (hbits k hk h5 hn)

/-- `assign` keeps every bit but its flag's and bit 5 (R51). -/
theorem KeepsUnwrittenFlags.of_assign {n : String} (f : Flag) (b : Bool) {s t : State} (h : t.P = assign s.P f b)
    (hf : ∀ k < 8, k ≠ 5 → n ∉ flagWriters k → k ≠ f.bit) : KeepsUnwrittenFlags n s t := fun k hk h5 hn => by
  rw [flagBit, h, assign_getLsbD _ _ _ _ hk, if_neg h5, if_neg (hf k hk h5 hn)]; rfl

theorem ReadMnemonic.flags {n : String} {e : State → Byte → State} (h : ReadMnemonic n e) (s : State) (v : Byte) :
    KeepsUnwrittenFlags n s (e s v) := by
  cases h with
  | adc | sbc => exact .of_keepsFlags (s.adc_keepsFlags _) (by decide)
  | and | ora | eor | lda | ldx | ldy => exact .of_keepsFlags (keepsFlags_of_setZN rfl) (by decide)
  | bit => exact .of_keepsFlags (s.bitTest_keepsFlags v) (by decide)
  | cmp | cpx | cpy => exact .of_keepsFlags (keepsFlags_of_compareFlags rfl) (by decide)

theorem ModifyMnemonic.flags {n : String} {f : Byte → Byte → Byte × Byte} (h : ModifyMnemonic n f) {s t : State} {v : Byte}
    (ht : t.P = (f v s.P).2) : KeepsUnwrittenFlags n s t := by
  cases h with
  | asl | lsr | rol | ror => exact .of_keepsFlags (keepsFlags_of_shiftFlags ht) (by decide)
  | dec | inc => exact .of_keepsFlags (keepsFlags_of_setZN ht) (by decide)

theorem ImpliedMnemonic.flags {n : String} {e : State → State} (h : ImpliedMnemonic n e) (s : State) :
    KeepsUnwrittenFlags n s (e s) := by
  cases h with
  | dex | dey | inx | iny | tax | tay | txa | tya | tsx => exact .of_keepsFlags (keepsFlags_of_setZN rfl) (by decide)
  | clc | sec => exact .of_assign .C _ (s.setP_P _) (by decide)
  | cli | sei => exact .of_assign .I _ (s.setP_P _) (by decide)
  | cld | sed => exact .of_assign .D _ (s.setP_P _) (by decide)
  | clv => exact .of_assign .V _ (s.setP_P _) (by decide)
  | txs | nop => exact keepsUnwrittenFlags_of_eq rfl

/-- PLP and RTI are writers of every flag. -/
theorem KeepsUnwrittenFlags.of_status_pull {n : String} {s t : State} (hn : ∀ k < 8, k ≠ 5 → n ∈ flagWriters k) :
    KeepsUnwrittenFlags n s t :=
  fun k hk h5 hnot => absurd (hn k hk h5) hnot

/-- An instruction of the table keeps every flag that does not have its mnemonic as a writer. -/
theorem RowMeaning.flags {row : Row} {i : Instr} {m : State → Host.Outcome State Fault Refusal} {s t : State}
    (h : RowMeaning row i m) (ht : m s = .next t) : KeepsUnwrittenFlags row.mnemonic s t := by
  cases h with
  | read h => cases ht; exact h.flags s _
  | modify h => cases ht; exact h.flags rfl
  | implied h => cases ht; exact h.flags s
  | store | jump => cases ht; exact keepsUnwrittenFlags_of_eq rfl
  | branch => obtain ⟨_, _, rfl⟩ := branchInstr_cases ht; exact keepsUnwrittenFlags_of_eq rfl
  | jsr => obtain ⟨-, rfl⟩ | ⟨-, -, -, rfl⟩ := execJsr_cases ht <;> exact keepsUnwrittenFlags_of_eq rfl
  | rts => obtain ⟨-, rfl⟩ | ⟨-, -, -, rfl⟩ := execRts_cases ht <;> exact keepsUnwrittenFlags_of_eq rfl
  | pha | php => obtain ⟨-, rfl⟩ | ⟨-, -, rfl⟩ := execPush_cases ht <;> exact keepsUnwrittenFlags_of_eq rfl
  | brk h =>
    rw [h]
    obtain ⟨-, rfl⟩ | ⟨-, -, -, -, rfl⟩ := execBrk_cases ht
    · exact keepsUnwrittenFlags_of_eq rfl
    · exact .of_assign .I true rfl (by decide)
  | pla h =>
    rw [h]
    obtain ⟨-, rfl⟩ | ⟨-, -, rfl⟩ := execPla_cases ht
    · exact keepsUnwrittenFlags_of_eq rfl
    · exact .of_keepsFlags (keepsFlags_of_setZN rfl) (by decide)
  | rti h | plp h => rw [h]; exact .of_status_pull (by decide)

/-- Settles O25: each rule keeps the bits of `P` that its flag function does not write. -/
theorem flagsChangeOnlyByTheirWriters : Obligations.FlagsChangeOnlyByTheirWriters := by
  intro cfg i s t k _ _ ht hk h5 hn
  cases instr_case i with
  | illegal => cases ht; rfl
  | row b w hbytes hrow _ h =>
    rw [mnemonicOf_of_lookup hbytes hrow] at hn
    exact h.flags ht k hk h5 hn

end Sys2Proof.Machine
end

section
/-! PROOFS. The cost of a step (R136): the row's base count, the page-cross cycle (R68) and the branch increments (R91). -/

namespace Sys2Proof.Machine

open Claims

/-! ### The row of the instruction that fetch finds -/

theorem ne_nopIllegal_of_row {row : Row} (hrow : row ∈ dispatchTable) (b : Byte) (w : Addr) (op : Byte) (cyc : Nat) :
    row.form.instr b w ≠ .nopIllegal op cyc := by
  intro h
  have hwf := wf_of_row Config.default b w row hrow
  rw [h] at hwf
  simp [Instr.wf, Config.default] at hwf

/-- The instruction that a row stands for has the meaning of the row. -/
theorem rowMeaning_of_lookup {op : Byte} {row : Row} {i : Instr} {b : Byte} {w : Addr} (hrow : lookup op = some row)
    (hi : i = row.form.instr b w) : RowMeaning row i (exec i) := by
  obtain ⟨hmem, rfl⟩ := lookup_mem hrow
  have henc := encode_of_row b w row hmem
  rw [← hi] at henc
  cases instr_case i with
  | illegal => exact absurd hi.symm (ne_nopIllegal_of_row hmem b w _ _)
  | row _ _ hbytes hrow' _ h =>
    obtain ⟨rfl, -⟩ := List.cons.inj (hbytes.symm.trans henc)
    obtain rfl := Option.some.inj (hrow.symm.trans hrow')
    exact h

/-- What fetch finds: the instruction of the row of the byte at `pc`, or the byte's entry in `ILLEGAL_NOPS` (R132). -/
theorem fetchInstr_cases {cfg : Config} {s : State} {i : Instr} (h : fetchInstr cfg s = some i) :
    (∃ row, lookup (s.memRead s.pc) = some row ∧ RowMeaning row i (exec i)) ∨
    ∃ cyc, lookup (s.memRead s.pc) = none ∧ illegalNop cfg (s.memRead s.pc) = some (s.memRead s.pc, cyc) ∧
      i = .nopIllegal (s.memRead s.pc) cyc := by
  cases hd : decode cfg s.fetchWindow with
  | error e => simp [fetchInstr, hd] at h
  | ok r =>
    simp only [fetchInstr, hd] at h
    cases h
    obtain ⟨op, more, hbytes, hcase⟩ := decode_cases (i := r.1) (rest := r.2) hd
    obtain ⟨rfl, -⟩ := List.cons.inj hbytes
    exact hcase.imp (fun ⟨row, _, _, hrow, hi, _⟩ => ⟨row, hrow, rowMeaning_of_lookup hrow hi⟩)
      (fun ⟨cyc, hrow, hentry, hi, _⟩ => ⟨cyc, hrow, hentry, hi⟩)

/-! ### The cost of a row -/

/-- The most that a mark of the `+` column can add (R68, R91). -/
def mostExtraCycles : Extra → Nat
  | .none => 0
  | .pageCross => 1
  | .branch => 2

theorem cycles_of_row : ∀ row ∈ dispatchTable, 2 ≤ row.cycles ∧ row.cycles + mostExtraCycles row.extra ≤ 7 := by
  decide +kernel

/-- Only the rows marked `b` are branches. -/
theorem branchTaken_of_row (s : State) :
    ∀ row ∈ dispatchTable, row.extra ≠ .branch → branchTaken row.mnemonic s = false := by
  have h : dispatchTable.all (fun row => row.extra == .branch || !branchTaken row.mnemonic s) = true := rfl
  intro row hrow hx
  simpa [hx] using List.all_eq_true.mp h row hrow

section
variable {row : Row} (hrow : row ∈ dispatchTable) {i : Instr} {s t : State}
include hrow

theorem rowCost_of_no_extra (hx : row.extra = .none) : rowCost row i s t = row.cycles := by
  simp [rowCost, hx, branchTaken_of_row s row hrow (by simp [hx])]

/-- A row's cost is between 2 and 7. -/
theorem rowCost_bounds : 2 ≤ rowCost row i s t ∧ rowCost row i s t ≤ 7 := by
  obtain ⟨hlow, hhigh⟩ := cycles_of_row row hrow
  cases hx : row.extra with
  | none =>
    rw [hx] at hhigh
    rw [rowCost_of_no_extra hrow hx]; exact ⟨hlow, hhigh⟩
  | pageCross =>
    simp only [rowCost, branchTaken_of_row s row hrow (by simp [hx]), hx, mostExtraCycles] at hhigh ⊢
    split <;> simp <;> omega
  | branch =>
    simp only [rowCost, hx, mostExtraCycles, reduceCtorEq, false_and, if_false] at hhigh ⊢
    split_ifs <;> omega

/-- The page-cross cycle that the shape of a reading instruction charges is the one of the row's cost. -/
theorem rowCost_of_operand {o : Operand} (hx : row.extra ≠ .branch) (hm : memOperandOf row.mode (encode i) = o.memory?) :
    rowCost row i s t = row.cycles + pageCrossCycle row.extra (o.crossed s) := by
  have hcross : o.crossed s = true ↔ ∃ m, o.memory? = some m ∧ m.crossed s = true := by
    cases o <;> simp [Operand.crossed, Operand.memory?]
  simp [rowCost, branchTaken_of_row s row hrow hx, hm, ← hcross, pageCrossCycle]

/-- An instruction of the table that raises no fault adds its row's cost. -/
theorem RowMeaning.cycle {m : State → Host.Outcome State Fault Refusal} (h : RowMeaning row i m) (ht : m s = .next t)
    (hrun : t.run = .fetch) : t.cycle = s.cycle + rowCost row i s t := by
  cases h with
  | read h hm _ hx =>
    cases ht
    rw [rowCost_of_operand hrow hx hm, State.advance_cycle, h.effect.cycle]
  | store _ _ _ hx | jump _ _ hx => cases ht; rw [rowCost_of_no_extra hrow hx]; rfl
  | modify _ _ _ _ hx => cases ht; rw [rowCost_of_no_extra hrow hx]; simp
  | implied h _ hx =>
    cases ht
    rw [rowCost_of_no_extra hrow hx, State.advance_cycle, (h.effect.keeps_control s).2.1]
  | @branch _ cond h d hlen hc hx =>
    have hnext : branchInstr (cond s) d s = .next t := ht
    have htaken := h.branchTaken_eq s
    cases hcond : cond s with
    | false =>
      rw [hcond, branchInstr_not_taken] at hnext
      cases hnext
      simp [rowCost, hx, hc, htaken, hcond]
    | true =>
      rw [hcond, branchInstr_taken] at hnext
      cases hnext
      by_cases hpage : (relativeTarget s d).toNat / 256 = (s.pc.toNat + 2) % 65536 / 256 <;>
        simp [rowCost, hx, hc, htaken, hcond, hpage]
  | jsr _ _ hc hx =>
    obtain ⟨-, rfl⟩ | ⟨-, -, -, rfl⟩ := execJsr_cases ht
    · cases hrun
    · rw [rowCost_of_no_extra hrow hx, hc]
  | rts _ hc hx =>
    obtain ⟨-, rfl⟩ | ⟨-, -, -, rfl⟩ := execRts_cases ht
    · cases hrun
    · rw [rowCost_of_no_extra hrow hx, hc]
  | brk _ hc hx =>
    obtain ⟨-, rfl⟩ | ⟨-, -, -, -, rfl⟩ := execBrk_cases ht
    · cases hrun
    · rw [rowCost_of_no_extra hrow hx, hc]
  | rti _ hc hx =>
    obtain ⟨-, rfl⟩ | ⟨-, -, -, -, rfl⟩ := execRti_cases ht
    · cases hrun
    · rw [rowCost_of_no_extra hrow hx, hc]
  | pha _ hc hx | php _ hc hx =>
    obtain ⟨-, rfl⟩ | ⟨-, -, rfl⟩ := execPush_cases ht
    · cases hrun
    · rw [rowCost_of_no_extra hrow hx, hc]
  | pla _ hc hx =>
    obtain ⟨-, rfl⟩ | ⟨-, -, rfl⟩ := execPla_cases ht
    · cases hrun
    · rw [rowCost_of_no_extra hrow hx, hc]
  | plp _ hc hx =>
    obtain ⟨-, rfl⟩ | ⟨-, -, rfl⟩ := execPlp_cases ht
    · cases hrun
    · rw [rowCost_of_no_extra hrow hx, hc]

end

/-- A step that returns `Ok(c)` has run the instruction that fetch finds, without a fault, and added `c` (R136, R139). -/
theorem stepReturn_ok_exec {cfg : Config} {s t : State} {i : Instr} {c : Nat} (hi : fetchInstr cfg s = some i)
    (h : stepReturn cfg s = some (t, .ok c)) : exec i s = .next t ∧ t.run = .fetch ∧ t.cycle = s.cycle + c := by
  obtain ⟨j, -, hcycle, -⟩ := stepReturn_ok h
  obtain ⟨f, -, -, hf⟩ | ⟨hs, hstep, ⟨ht, -⟩ | ⟨f, -, hf⟩⟩ := stepReturn_cases h
  · cases hf
  · exact ⟨stepWith_of_fetchInstr hs hi ▸ hstep, ht, hcycle⟩
  · cases hf

/-- Settles O20, by what fetch finds: a row's instruction or an illegal NOP. -/
theorem costFollowsTheDispatchTable : Obligations.CostFollowsTheDispatchTable := by
  refine ⟨fun cfg s t c i hi h => ?_, fun _ _ _ _ => stepReturn_err_cycle⟩
  obtain ⟨hexec, hrun, hcycle⟩ := stepReturn_ok_exec hi h
  refine ⟨hcycle, ?_⟩
  obtain ⟨row, hrow, hmeaning⟩ | ⟨cyc, hrow, hentry, rfl⟩ := fetchInstr_cases hi
  · rw [hrow]
    refine ⟨fun row' hrow' => ?_, nofun⟩
    cases hrow'
    have hmem := (lookup_mem hrow).1
    have hcost : c = rowCost row i s t := by
      have := hmeaning.cycle hmem hexec hrun
      omega
    exact ⟨hcost, hcost ▸ rowCost_bounds hmem⟩
  · rw [hrow]
    cases hexec
    have hcyc : cyc = c := Nat.add_left_cancel hcycle
    exact ⟨nofun, fun _ => hcyc ▸ hentry⟩

end Sys2Proof.Machine
end

section
/-! PROOFS. The invariant (`10_state.md` R11, R12, R15; log 16): it holds after reset and every step keeps it. -/

namespace Sys2Proof.Machine

/-- Settles O11: the constructed state holds the given memory and stack contents, and bit 5 of the reset `P` is 1. -/
theorem invariantHoldsAfterReset : Obligations.InvariantHoldsAfterReset :=
  ⟨fun _ _ _ hmem hbelow hstack hstackBelow => ⟨construct_bit5 _ _ _, hmem, hbelow, hstack, hstackBelow⟩,
    ⟨construct_bit5 _ _ _, rfl, rfl, rfl, rfl⟩⟩

section
variable {i : Instr} {s t : State} {p : Memory → Prop}

/-- A predicate that every write to an address keeps holds of memory after an instruction. -/
theorem exec_keeps_memory (hwrite : ∀ m (a : Addr) v, p m → p (m.write a.toNat v)) (ht : exec i s = .next t)
    (hs : p s.memory) : p t.memory := by
  cases instr_case i with
  | illegal => cases ht; exact hs
  | row b w _ _ _ h =>
    obtain hmem | ⟨m, v, -, -, hmem⟩ := h.memory ht
    · rwa [hmem]
    · rw [hmem]; exact hwrite _ _ v hs

/-- A predicate that every write to a slot keeps holds of the stack buffer after an instruction. -/
theorem exec_keeps_stack (hwrite : ∀ m (i v : Byte), p m → p (m.write i.toNat v)) (ht : exec i s = .next t)
    (hs : p s.stack) : p t.stack := by
  cases instr_case i with
  | illegal => cases ht; exact hs
  | row b w _ _ _ h =>
    obtain ⟨hstack, -⟩ | ⟨-, ws, -, hstack⟩ := h.stack ht
    · rwa [hstack]
    · rw [hstack]; exact Memory.writeAll_keeps hwrite ws hs

end

/-- An instruction keeps the invariant: its flag writes set bit 5, and its memory and stack writes keep the canonical form and
the sizes. -/
theorem exec_keeps_inv {i : Instr} {s t : State} (hs : s.Inv) (ht : exec i s = .next t) : t.Inv where
  bit5 := (exec_shape i s).keeps_bit5 ht hs.bit5
  memory_wf := exec_keeps_memory (p := fun m => m.wf = true) (fun _ _ v => Memory.write_wf _ v) ht hs.memory_wf
  memory_below := exec_keeps_memory (p := fun m => m.below 65536 = true)
    (fun _ a v h => Memory.write_below v h a.isLt) ht hs.memory_below
  stack_wf := exec_keeps_stack (p := fun m => m.wf = true) (fun _ _ v => Memory.write_wf _ v) ht hs.stack_wf
  stack_below := exec_keeps_stack (p := fun m => m.below 256 = true)
    (fun _ j v h => Memory.write_below v h j.isLt) ht hs.stack_below

/-- Settles O12: a step runs an instruction or changes `run` alone. -/
theorem stepKeepsInvariant : Obligations.StepKeepsInvariant := by
  intro cfg s t hs h
  obtain ⟨-, ⟨i, -, hi⟩ | ⟨-, rfl⟩⟩ := stepWith_cases h
  · exact exec_keeps_inv hs hi
  · exact ⟨hs.bit5, hs.memory_wf, hs.memory_below, hs.stack_wf, hs.stack_below⟩

end Sys2Proof.Machine
end

section
/-! PROOFS. Memory and the stack buffer as canonical lists (log 16), and the stack primitives (`20_memory.md` R27). -/

namespace Sys2Proof.Machine

open Claims

/-- Settles O29: a canonical list is determined by its reads. -/
theorem equalReadsMeanEqualMemories : Obligations.EqualReadsMeanEqualMemories :=
  fun _ _ => Memory.eq_of_read

theorem State.pop_empty {s : State} (h : s.S = 0) : s.pop = .error .stackUnderflow := by
  rw [State.pop, if_pos h]

theorem State.pop_ok {s : State} (h : s.S ≠ 0) : s.pop = .ok (s.stackRead s.S, { s with S := s.S - 1 }) := by
  rw [State.pop, if_neg h]

/-- A push below the top writes the next slot, and a pop then reads it back and erases nothing (R27). -/
theorem State.push_then_pop {s t : State} {v : Byte} (hwf : s.stack.wf = true) (hS : (s.S + 1).toNat = s.S.toNat + 1)
    (ht : t = { s with S := s.S + 1, stack := s.stack.write (s.S + 1).toNat v }) :
    t.stackRead t.S = v ∧ KeepsStackBut [t.S] s t ∧ t.pop = .ok (v, { t with S := s.S }) := by
  obtain ⟨htop, hkeep⟩ := State.stackRead_of_write (t := t) (i := s.S + 1) (v := v) hwf (by rw [ht])
  have htS : t.S = s.S + 1 := by rw [ht]
  rw [← htS] at htop hkeep hS
  refine ⟨htop, hkeep, ?_⟩
  obtain ⟨hempty, -⟩ | ⟨-, -, hpop⟩ := t.pop_cases
  · rw [hempty] at hS; cases hS
  · rw [hpop, htop, htS, BitVec.add_sub_cancel]

/-- Settles O30, by the two cases of a push and of a pop. -/
theorem stackPushAndPop : Obligations.StackPushAndPop := by
  intro s v hwf
  refine ⟨?full, ?push, ?empty, ?pop⟩
  case full => exact fun h => State.push_full v (BitVec.eq_of_toNat_eq h)
  case push =>
    intro hlt
    obtain ⟨hS, -⟩ | ⟨-, hS, hpush⟩ := s.push_cases v
    · exact absurd (congrArg BitVec.toNat hS) hlt.ne
    · obtain ⟨htop, hkeep, hpop⟩ := State.push_then_pop (v := v) hwf hS rfl
      exact ⟨_, hpush, hS, htop, hkeep, rfl, hpop⟩
  case empty => exact fun h => State.pop_empty (BitVec.eq_of_toNat_eq h)
  case pop =>
    intro hpos
    obtain ⟨hS, -⟩ | ⟨-, hS, hpop⟩ := s.pop_cases
    · exact absurd (congrArg BitVec.toNat hS) hpos.ne'
    · exact ⟨_, hpop, by rw [hS]; omega, rfl⟩

end Sys2Proof.Machine
end

section
/-! PROOFS. The family `48_load_store.md`: LDA, LDX and LDY (R124 to R126), STA, STX and STY (R127 to R129). -/

namespace Sys2Proof.Machine

open Claims

/-! ### Loads -/

theorem readForm_lda (b h l : Byte) : ∀ f ∈ ldaForms b h l, ReadForm State.loadA f := by
  simp only [ldaForms, List.forall_mem_cons]
  refine ⟨?_, ?_, ?_, ?_, ?_, ?_, ?_, ?_, List.forall_mem_nil _⟩ <;> exact ⟨fun _ _ => rfl, rfl, fun _ => rfl⟩

theorem readForm_ldx_ldy (b h l : Byte) :
    (∀ f ∈ ldxForms b h l, ReadForm State.loadX f) ∧ ∀ f ∈ ldyForms b h l, ReadForm State.loadY f := by
  simp only [ldxForms, ldyForms, List.forall_mem_cons]
  refine ⟨?ldx, ?ldy⟩ <;> refine ⟨?_, ?_, ?_, ?_, ?_, List.forall_mem_nil _⟩ <;>
    exact ⟨fun _ _ => rfl, rfl, fun _ => rfl⟩

/-- Settles O42: each form loads its register with its operand, and a load writes Z and N beside the register. -/
theorem loadsCopyTheOperand : Obligations.LoadsCopyTheOperand := by
  intro b h l s
  obtain ⟨hldx, hldy⟩ := readForm_ldx_ldy b h l
  refine ⟨?lda, ?ldx, ?ldy⟩
  case lda =>
    exact fun f hf => (readForm_lda b h l f hf).completes .lda fun len cost => ⟨rfl, s.loadA_advance_frame _ len cost⟩
  case ldx => exact fun f hf => (hldx f hf).completes .ldx fun len cost => ⟨rfl, s.loadX_advance_frame _ len cost⟩
  case ldy => exact fun f hf => (hldy f hf).completes .ldy fun len cost => ⟨rfl, s.loadY_advance_frame _ len cost⟩

/-! ### Stores -/

/-- The form's bytes decode to its instruction, which `exec` runs as the store of the register `v` at the form's operand, at the
form's cost; the operand says how many bytes there are. -/
structure StoreForm (v : State → Byte) (f : InstrForm MemOperand) : Prop where
  encoded : f.Encoded
  length_eq : f.operand.mode.length = f.bytes.length
  exec_eq : ∀ s, exec f.instr s = storeInstr (v s) f.operand f.cycles s

/-- A form that stores a register completes at its constant cost (R68) and writes one byte. -/
theorem StoreForm.completes {v : State → Byte} {f : InstrForm MemOperand} {s : State} (hf : StoreForm v f)
    (hwf : s.memory.wf = true) :
    Completes s f 0 fun t =>
      t.memRead (f.operand.ea s) = v s ∧ KeepsMemoryBut (f.operand.ea s) s t ∧
      t.P = s.P ∧ t.A = s.A ∧ KeepsIndexes s t := by
  refine ⟨hf.encoded, _, hf.exec_eq s, ?pc, rfl, rfl, ?byte, ?others, rfl, rfl, rfl, rfl, rfl, fun _ => rfl⟩
  case pc => rw [State.advance_pc, hf.length_eq]; rfl
  case byte => exact s.memRead_memWrite_same _ _ hwf
  case others => exact fun a ha => s.memRead_memWrite_ne _ ha

theorem storeForm_sta_stx_sty (b h l : Byte) :
    (∀ f ∈ staForms b h l, StoreForm State.A f) ∧ (∀ f ∈ stxForms b h l, StoreForm State.X f) ∧
      ∀ f ∈ styForms b h l, StoreForm State.Y f := by
  simp only [staForms, stxForms, styForms, List.forall_mem_cons]
  refine ⟨⟨?_, ?_, ?_, ?_, ?_, ?_, ?_, List.forall_mem_nil _⟩, ⟨?_, ?_, ?_, List.forall_mem_nil _⟩,
    ?_, ?_, ?_, List.forall_mem_nil _⟩ <;> exact ⟨fun _ _ => rfl, rfl, fun _ => rfl⟩

/-- Settles O43: the three mnemonics run one rule, the store, on `A`, `X` and `Y`. -/
theorem storesWriteOneByte : Obligations.StoresWriteOneByte := by
  intro b h l s hwf
  obtain ⟨hsta, hstx, hsty⟩ := storeForm_sta_stx_sty b h l
  simp only [List.forall_mem_cons]
  exact ⟨fun f hf => (hsta f hf).completes hwf, fun f hf => (hstx f hf).completes hwf,
    fun f hf => (hsty f hf).completes hwf, List.forall_mem_nil _⟩

end Sys2Proof.Machine
end

section
/-! PROOFS. Pairs of instructions: JSR and RTS, BRK and RTI, the pushes and the pulls, and a store before a fetch
(`46_control_transfer.md`, `47_stack_transfer_flag_nop.md`, `20_memory.md` R30). -/

namespace Sys2Proof.Machine

open Claims

/-! ### JSR and RTS -/

/-- The word that JSR and BRK push is the word that RTS and RTI pop. -/
theorem wordOf_read_writeWord {m : Memory} (hwf : m.wf = true) (i : Byte) (w : Addr) :
    wordOf ((m.writeWord i w).read i.toNat) ((m.writeWord i w).read (i + 1).toNat) = w := by
  rw [Memory.read_writeWord_hi i w hwf, Memory.read_writeWord_lo i w hwf, wordOf_hi_lo]

/-- Settles O56: RTS pops the address of the last byte of the JSR, and goes one past it. -/
theorem rtsUndoesJsr : Obligations.RtsUndoesJsr := by
  intro w s hwf hS
  obtain ⟨t, ht⟩ := exec_next (.jsr w) s
  obtain ⟨u, hu⟩ := exec_next .rts t
  obtain ⟨hfull, -⟩ | ⟨-, -, hS2, htnext⟩ := execJsr_cases ht
  · omega
  have htS : t.S = s.S + 1 + 1 := by rw [htnext]
  obtain ⟨hempty, -⟩ | ⟨-, -, -, hunext⟩ := execRts_cases hu
  · rw [htS] at hempty; omega
  have hslot : t.S - 1 = s.S + 1 := by rw [htS, BitVec.add_sub_cancel]
  have hword : wordOf (t.stackRead (t.S - 1)) (t.stackRead t.S) = s.pc + 2 := by
    rw [hslot, htS, htnext]
    exact wordOf_read_writeWord hwf (s.S + 1) (s.pc + 2)
  have hpc : u.pc = s.pc + 3 := by rw [hunext, hword]; exact BitVec.add_assoc _ _ _
  have huS : u.S = s.S := by rw [hunext, hslot, BitVec.add_sub_cancel]
  have hframe : u = { s with S := u.S, pc := u.pc, stack := t.stack, cycle := s.cycle + 12 } := by rw [hunext, htnext]
  exact ⟨t, u, ht, hu, hpc, hframe.trans (by rw [huS, hpc])⟩

/-! ### BRK and RTI -/

/-- Settles O57: RTI pops what BRK pushed, the status byte with B set and then the address two past the BRK. -/
theorem rtiUndoesBrk : Obligations.RtiUndoesBrk := by
  intro s hwf hS
  obtain ⟨t, ht⟩ := exec_next .brk s
  obtain ⟨u, hu⟩ := exec_next .rti t
  obtain ⟨hfull, -⟩ | ⟨-, -, -, hS3, htnext⟩ := execBrk_cases ht
  · omega
  have htS : t.S = s.S + 1 + 1 + 1 := by rw [htnext]
  obtain ⟨hempty, -⟩ | ⟨-, -, -, -, hunext⟩ := execRti_cases hu
  · rw [htS] at hempty; omega
  have hslot2 : t.S - 1 = s.S + 1 + 1 := by rw [htS, BitVec.add_sub_cancel]
  have hslot1 : t.S - 1 - 1 = s.S + 1 := by rw [hslot2, BitVec.add_sub_cancel]
  have hstatus : t.stackRead t.S = s.P ||| maskB := by
    rw [htS, htnext]
    exact Memory.read_write_same _ _ (Memory.writeWord_wf (s.S + 1) (s.pc + 2) hwf)
  have hbelow : ∀ i, i ≠ s.S + 1 + 1 + 1 → t.stackRead i = (s.stack.writeWord (s.S + 1) (s.pc + 2)).read i.toNat := by
    intro i hi
    rw [htnext]
    exact State.stack_read_write_ne _ _ hi
  have hword : wordOf (t.stackRead (t.S - 1 - 1)) (t.stackRead (t.S - 1)) = s.pc + 2 := by
    rw [hslot1, hslot2, hbelow _ (by simp [BitVec.add_assoc]), hbelow _ (by simp)]
    exact wordOf_read_writeWord hwf (s.S + 1) (s.pc + 2)
  have hpc : u.pc = s.pc + 2 := by rw [hunext, hword]
  have huS : u.S = s.S := by rw [hunext, hslot1, BitVec.add_sub_cancel]
  have hP : u.P = s.P ||| maskB ||| mask1 := by rw [hunext, hstatus]
  have hframe : u = { s with S := u.S, pc := u.pc, P := u.P, stack := t.stack, cycle := s.cycle + 13 } := by
    rw [hunext, htnext]
  refine ⟨t, u, ht, hu, hpc, huS, fun k hk => ?_, hframe.trans (by rw [huS])⟩
  have hbits : (s.P ||| maskB ||| mask1).getLsbD k =
      if k = 5 then true else if k = 4 then true else s.P.getLsbD k :=
    (or_twoPow_getLsbD _ 5 hk).trans (by rw [← or_twoPow_getLsbD s.P 4 hk]; rfl)
  rw [flagBit, hP, hbits]
  by_cases h5 : k = 5 <;> simp [h5, flagBit]

/-! ### PHA and PLA, PHP and PLP -/

/-- Settles O58: a pull reads the slot that the push wrote, whatever `A` or `P` holds by then. -/
theorem pullsUndoPushes : Obligations.PullsUndoPushes := by
  intro s x hwf hS
  refine ⟨?accumulator, ?status⟩
  case accumulator =>
    obtain ⟨t, ht⟩ := exec_next .pha s
    obtain ⟨u, hu⟩ := exec_next .pla { t with A := x }
    obtain ⟨hfull, -⟩ | ⟨-, hS1, rfl⟩ := execPush_cases ht
    · omega
    obtain ⟨hempty, -⟩ | ⟨-, -, hunext⟩ := execPla_cases hu
    · simp only at hempty; omega
    refine ⟨_, u, ht, hu, ?_, ?_⟩
    · rw [hunext]; exact Memory.read_write_same _ s.A hwf
    · rw [hunext]; exact BitVec.add_sub_cancel _ _
  case status =>
    obtain ⟨t, ht⟩ := exec_next .php s
    obtain ⟨u, hu⟩ := exec_next .plp { t with P := x }
    obtain ⟨hfull, -⟩ | ⟨-, hS1, rfl⟩ := execPush_cases ht
    · omega
    obtain ⟨hempty, -⟩ | ⟨-, -, hunext⟩ := execPlp_cases hu
    · simp only at hempty; omega
    have hP : u.P = s.P ||| mask1 := by
      rw [hunext]; exact congrArg (· ||| mask1) (Memory.read_write_same _ s.P hwf)
    refine ⟨_, u, ht, hu, ?_, fun k hk => ?_⟩
    · rw [hunext]; exact BitVec.add_sub_cancel _ _
    · rw [flagBit, hP]; exact or_twoPow_getLsbD s.P 5 hk

/-! ### A store and the next fetch -/

/-- Settles O59: fetch reads memory, and the byte at the new `pc` is the one stored (R30). -/
theorem storedByteIsTheNextOpcode : Obligations.StoredByteIsTheNextOpcode := by
  intro s hwf
  obtain ⟨t, ht⟩ := exec_next (.staAbs (s.pc + 3)) s
  have hbyte : t.memRead t.pc = s.A := by cases ht; exact s.memRead_memWrite_same _ s.A hwf
  refine ⟨t, ht, hbyte, fun cfg i rest hrun hdecode => ?_⟩
  rw [← hbyte] at hdecode
  exact stepWith_of_fetchInstr hrun (fetchInstr_of_decode hdecode)

end Sys2Proof.Machine
end

section
/-! PROOFS. Two states that differ only in what an instruction does not observe. A relation between states that the state's
operations keep is kept by every instruction; agreement but for the bits I, D and B (R10) and agreement but for the unpushed
stack slots (R13) are two such relations. -/

namespace Sys2Proof.Machine

open Claims

/-! ### Relations between outcomes -/

/-- Two stack rules both raise one fault, or complete with related results. -/
inductive RuleRel {α β : Type} (Q : α → β → Prop) : Except Fault α → Except Fault β → Prop
  | error (f : Fault) : RuleRel Q (.error f) (.error f)
  | ok {a b} (h : Q a b) : RuleRel Q (.ok a) (.ok b)

theorem RuleRel.bind {α β γ δ : Type} {Q : α → β → Prop} {Q' : γ → δ → Prop} {x : Except Fault α}
    {y : Except Fault β} {f : α → Except Fault γ} {g : β → Except Fault δ} (h : RuleRel Q x y)
    (hfg : ∀ a b, Q a b → RuleRel Q' (f a) (g b)) : RuleRel Q' (x.bind f) (y.bind g) := by
  cases h with
  | error e => exact .error e
  | ok hab => exact hfg _ _ hab

/-- Both outcomes are next states, and the states are related. -/
def NextRel (R : State → State → Prop) (o₁ o₂ : Host.Outcome State Fault Refusal) : Prop :=
  ∃ t₁ t₂, o₁ = .next t₁ ∧ o₂ = .next t₂ ∧ R t₁ t₂

theorem nextRel_next {R : State → State → Prop} {s t : State} (h : R s t) : NextRel R (.next s) (.next t) :=
  ⟨s, t, rfl, rfl, h⟩

/-! ### Relations that every instruction keeps -/

/-- Two status bytes differ at most in the bits I, D and B. -/
def EqButIDB (p q : Byte) : Prop := ∀ k : Nat, k < 8 → k ≠ 2 → k ≠ 3 → k ≠ 4 → p.getLsbD k = q.getLsbD k

/-- What the operations of the state ask of a relation: related states differ in `P` and the stack buffer alone, and there only
where no operation looks. -/
structure KeptByOperations (R : State → State → Prop) : Prop where
  hidden {s t} (h : R s t) : ∃ p k, t = { s with P := p, stack := k }
  flags {s t} (h : R s t) : EqButIDB s.P t.P
  visible {s t} (h : R s t) (A X Y : Byte) (pc : Addr) (memory : Memory) (cycle : Nat) (run : RunState) :
    R { s with A := A, X := X, Y := Y, pc := pc, memory := memory, cycle := cycle, run := run }
      { t with A := A, X := X, Y := Y, pc := pc, memory := memory, cycle := cycle, run := run }
  assign {s t} (h : R s t) (f : Flag) (b : Bool) : R (s.setP (assign s.P f b)) (t.setP (assign t.P f b))
  setP {s t} (h : R s t) (p : Byte) : R (s.setP p) (t.setP p)
  push {s t} (h : R s t) (v : Byte) : RuleRel R (s.push v) (t.push v)
  pop {s t} (h : R s t) : RuleRel (fun a b => a.1 = b.1 ∧ R a.2 b.2) s.pop t.pop

namespace KeptByOperations

variable {R : State → State → Prop} (K : KeptByOperations R) {s t : State} (h : R s t)
include K h

/-! #### The ends of a step -/

theorem advance (len cost : Nat) : R (s.advance len cost) (t.advance len cost) := by
  obtain ⟨p, k, rfl⟩ := K.hidden h
  exact K.visible h _ _ _ _ _ _ _

theorem goto (w : Addr) (cost : Nat) : R (s.goto w cost) (t.goto w cost) := by
  obtain ⟨p, k, rfl⟩ := K.hidden h
  exact K.visible h _ _ _ _ _ _ _

theorem raise (f : Fault) : R (s.raise f) (t.raise f) := by
  obtain ⟨p, k, rfl⟩ := K.hidden h
  exact K.visible h _ _ _ _ _ _ _

theorem commit {x y : Except Fault State} (hxy : RuleRel R x y) : NextRel R (commit s x) (commit t y) := by
  cases hxy with
  | error f => exact nextRel_next (K.raise h f)
  | ok hab => exact nextRel_next hab

/-! #### The flags -/

theorem setZN (v : Byte) : R (s.setP (setZN s.P v)) (t.setP (setZN t.P v)) := K.assign (K.assign h _ _) _ _

theorem shiftFlags (r : Byte) (out : Bool) : R (s.setP (shiftFlags s.P r out)) (t.setP (shiftFlags t.P r out)) :=
  K.setZN (K.assign h _ _) _

theorem compareFlags (r v : Byte) : R (s.setP (compareFlags s.P r v)) (t.setP (compareFlags t.P r v)) :=
  K.assign (K.assign (K.assign h _ _) _ _) _ _

theorem bitFlags (a v : Byte) : R (s.setP (bitFlags s.P a v)) (t.setP (bitFlags t.P a v)) :=
  K.assign (K.assign (K.assign h _ _) _ _) _ _

/-- The conditions test neither I nor D. -/
theorem test_eq (f : Flag) (hf : f.bit ≠ 2 ∧ f.bit ≠ 3 := by decide) : test s.P f = test t.P f := by
  rw [test_eq_getLsbD, test_eq_getLsbD]
  exact K.flags h f.bit (by cases f <;> decide) hf.1 hf.2 (by cases f <;> decide)

theorem carryIn_eq : carryIn s.P = carryIn t.P := by
  rw [carryIn, carryIn, K.test_eq h .C]

theorem adcFlags (a v : Byte) : R (s.setP (adcFlags s.P a v)) (t.setP (adcFlags t.P a v)) := by
  have hP : Machine.adcFlags t.P a v = Machine.setZN (Machine.assign (Machine.assign t.P .C
      (decide (adcSum a v (carryIn s.P) > 255))) .V (adcOverflow a v (adcResult a v (carryIn s.P))))
      (adcResult a v (carryIn s.P)) := by
    rw [K.carryIn_eq h]; rfl
  rw [hP]
  exact K.setZN (K.assign (K.assign h _ _) _ _) _

/-! #### Operands -/

theorem ea_eq (m : MemOperand) : m.ea s = m.ea t := by
  obtain ⟨p, k, rfl⟩ := K.hidden h
  cases m <;> rfl

theorem value_eq (o : Operand) : o.value s = o.value t ∧ o.crossed s = o.crossed t := by
  obtain ⟨p, k, rfl⟩ := K.hidden h
  cases o with
  | immediate => exact ⟨rfl, rfl⟩
  | memory m => cases m <;> exact ⟨rfl, rfl⟩

theorem placeValue_eq (pl : Place) : pl.value s = pl.value t := by
  obtain ⟨p, k, rfl⟩ := K.hidden h
  cases pl with
  | accumulator => rfl
  | memory m => cases m <;> rfl

theorem memWrite (a : Addr) (v : Byte) : R (s.memWrite a v) (t.memWrite a v) := by
  obtain ⟨p, k, rfl⟩ := K.hidden h
  exact K.visible h _ _ _ _ _ _ _

theorem writeback (pl : Place) (r : Byte) : R (pl.writeback s r) (pl.writeback t r) := by
  cases pl with
  | memory m => rw [Place.writeback, K.ea_eq h m]; exact K.memWrite h _ _
  | accumulator =>
    obtain ⟨p, k, rfl⟩ := K.hidden h
    exact K.visible h _ _ _ _ _ _ _

/-! #### Rules -/

theorem loadA (v : Byte) : R (s.loadA v) (t.loadA v) := by
  have hZN := K.setZN h v
  obtain ⟨p, k, rfl⟩ := K.hidden h
  exact K.visible hZN _ _ _ _ _ _ _

theorem loadX (v : Byte) : R (s.loadX v) (t.loadX v) := by
  have hZN := K.setZN h v
  obtain ⟨p, k, rfl⟩ := K.hidden h
  exact K.visible hZN _ _ _ _ _ _ _

theorem loadY (v : Byte) : R (s.loadY v) (t.loadY v) := by
  have hZN := K.setZN h v
  obtain ⟨p, k, rfl⟩ := K.hidden h
  exact K.visible hZN _ _ _ _ _ _ _

/-- Related states have the same registers. -/
theorem registers_eq : t.A = s.A ∧ t.X = s.X ∧ t.Y = s.Y ∧ t.S = s.S ∧ t.pc = s.pc := by
  obtain ⟨p, k, rfl⟩ := K.hidden h
  exact ⟨rfl, rfl, rfl, rfl, rfl⟩

theorem adc (v : Byte) : R (s.adc v) (t.adc v) := by
  have hflags := K.adcFlags h s.A v
  have hcarry := K.carryIn_eq h
  obtain ⟨p, k, rfl⟩ := K.hidden h
  rw [State.adc, State.adc, ← hcarry]
  exact K.visible hflags _ _ _ _ _ _ _

theorem readEffect {e : State → Byte → State} (he : ReadEffect e) (v : Byte) : R (e s v) (e t v) := by
  obtain ⟨hA, hX, hY, -, -⟩ := K.registers_eq h
  cases he with
  | adc | sbc => exact K.adc h _
  | and => rw [State.andA, State.andA, hA]; exact K.loadA h _
  | ora => rw [State.orA, State.orA, hA]; exact K.loadA h _
  | eor => rw [State.eorA, State.eorA, hA]; exact K.loadA h _
  | bit => rw [State.bitTest, State.bitTest, hA]; exact K.bitFlags h _ _
  | cmp => rw [State.compareA, State.compareA, hA]; exact K.compareFlags h _ _
  | cpx => rw [State.compareX, State.compareX, hX]; exact K.compareFlags h _ _
  | cpy => rw [State.compareY, State.compareY, hY]; exact K.compareFlags h _ _
  | lda => exact K.loadA h v
  | ldx => exact K.loadX h v
  | ldy => exact K.loadY h v

theorem modifyEffect {f : Byte → Byte → Byte × Byte} (hf : ModifyEffect f) (v : Byte) :
    (f v s.P).1 = (f v t.P).1 ∧ R (s.setP (f v s.P).2) (t.setP (f v t.P).2) := by
  have hcarry := K.carryIn_eq h
  cases hf with
  | asl | lsr => exact ⟨rfl, K.shiftFlags h _ _⟩
  | rol => rw [rolByte, rolByte, ← hcarry]; exact ⟨rfl, K.shiftFlags h _ _⟩
  | ror => rw [rorByte, rorByte, ← hcarry]; exact ⟨rfl, K.shiftFlags h _ _⟩
  | dec | inc => exact ⟨rfl, K.setZN h _⟩

/-- The write back and the write of `P` of a read-modify-write instruction. -/
theorem modify {f : Byte → Byte → Byte × Byte} (hf : ModifyEffect f) (pl : Place) :
    R ((pl.writeback s (f (pl.value s) s.P).1).setP (f (pl.value s) s.P).2)
      ((pl.writeback t (f (pl.value t) t.P).1).setP (f (pl.value t) t.P).2) := by
  obtain ⟨hresult, hflags⟩ := K.modifyEffect h hf (pl.value s)
  rw [← K.placeValue_eq h pl, ← hresult]
  have hwrite := K.writeback hflags pl (f (pl.value s) s.P).1
  cases pl with
  | accumulator => exact hwrite
  | memory m => cases m <;> exact hwrite

theorem storeMnemonic {n : String} {v : State → Byte} (hv : StoreMnemonic n v) : v s = v t := by
  obtain ⟨hA, hX, hY, -, -⟩ := K.registers_eq h
  cases hv with
  | sta => exact hA.symm
  | stx => exact hX.symm
  | sty => exact hY.symm

theorem impliedMnemonic {n : String} {e : State → State} (he : ImpliedMnemonic n e)
    (htxs : n = "TXS" → R { s with S := s.X } { t with S := t.X }) : R (e s) (e t) := by
  obtain ⟨hA, hX, hY, hS, -⟩ := K.registers_eq h
  cases he with
  | dex | inx => dsimp only; rw [hX]; exact K.loadX h _
  | dey | iny => dsimp only; rw [hY]; exact K.loadY h _
  | tax => dsimp only; rw [hA]; exact K.loadX h _
  | tay => dsimp only; rw [hA]; exact K.loadY h _
  | txa => dsimp only; rw [hX]; exact K.loadA h _
  | tya => dsimp only; rw [hY]; exact K.loadA h _
  | tsx => dsimp only; rw [hS]; exact K.loadX h _
  | txs => exact htxs rfl
  | clc | sec | cli | sei | clv | cld | sed => exact K.assign h _ _
  | nop => exact h

theorem branchMnemonic {n : String} {cond : State → Bool} (hc : BranchMnemonic n cond) : cond s = cond t := by
  cases hc with
  | bcc => exact congrArg (!·) (K.test_eq h .C)
  | bcs => exact K.test_eq h .C
  | beq => exact K.test_eq h .Z
  | bne => exact congrArg (!·) (K.test_eq h .Z)
  | bmi => exact K.test_eq h .N
  | bpl => exact congrArg (!·) (K.test_eq h .N)
  | bvc => exact congrArg (!·) (K.test_eq h .V)
  | bvs => exact K.test_eq h .V

theorem branchInstr (cond : Bool) (d : Byte) : NextRel R (branchInstr cond d s) (branchInstr cond d t) := by
  obtain ⟨-, -, -, -, hpc⟩ := K.registers_eq h
  cases cond with
  | false => exact nextRel_next (K.advance h _ _)
  | true =>
    rw [branchInstr_taken, branchInstr_taken, relativeTarget, relativeTarget, hpc]
    exact nextRel_next (K.goto h _ _)

theorem jumpTarget_eq {target : State → Addr} (ht : JumpTarget target) : target s = target t := by
  obtain ⟨p, k, rfl⟩ := K.hidden h
  cases ht <;> rfl

/-! #### The stack -/

theorem pushWord (w : Addr) : RuleRel R (s.pushWord w) (t.pushWord w) :=
  (K.push h _).bind fun _ _ hab => K.push hab _

theorem popWord : RuleRel (fun a b => a.1 = b.1 ∧ R a.2 b.2) s.popWord t.popWord := by
  refine (K.pop h).bind fun a b ⟨hlo, hab⟩ => (K.pop hab).bind fun c d ⟨hhi, hcd⟩ => .ok ⟨?_, hcd⟩
  rw [hlo, hhi]

/-- Trap entry pushes `P` itself, so it asks that the states agree in all of it. -/
theorem enterTrap (hP : s.P = t.P) (cost : Nat) : RuleRel R (s.enterTrap cost) (t.enterTrap cost) := by
  obtain ⟨-, -, -, -, hpc⟩ := K.registers_eq h
  rw [State.enterTrap, State.enterTrap, hpc, hP]
  refine (K.pushWord h _).bind fun a b hab => (K.push hab _).bind fun c d hcd => .ok ?_
  have hvector : c.brkVector = d.brkVector := by obtain ⟨p, k, rfl⟩ := K.hidden hcd; rfl
  rw [hvector]
  exact K.goto (K.assign hcd _ _) _ _

theorem leaveTrap (cost : Nat) : RuleRel R (s.leaveTrap cost) (t.leaveTrap cost) := by
  refine (K.pop h).bind fun a b ⟨hstatus, hab⟩ => (K.popWord hab).bind fun c d ⟨hpc, hcd⟩ => .ok ?_
  rw [hstatus, hpc]
  exact K.goto (K.setP hcd _) _ _

/-- PHA and PHP. -/
theorem pushInstr {v w : Byte} (hv : v = w) (len cost : Nat) :
    RuleRel R ((s.push v).bind fun u => .ok (u.advance len cost)) ((t.push w).bind fun u => .ok (u.advance len cost)) :=
  hv ▸ (K.push h v).bind fun _ _ hab => .ok (K.advance hab _ _)

/-! #### Instructions -/

/-- The two instructions that read more of the states than the relation says, BRK and PHP, and the one that writes `S`
otherwise than by a push or a pop, TXS, ask for it. -/
theorem rowMeaning {row : Row} {i : Instr} {m : State → Host.Outcome State Fault Refusal} (hm : RowMeaning row i m)
    (hstatus : i = .php ∨ i = .brk → s.P = t.P)
    (htxs : row.mnemonic = "TXS" → R { s with S := s.X } { t with S := t.X }) : NextRel R (m s) (m t) := by
  obtain ⟨hA, -, -, -, hpc⟩ := K.registers_eq h
  cases hm with
  | @read _ e o he =>
    obtain ⟨hvalue, hcrossed⟩ := K.value_eq h o
    rw [readInstr_eq, readInstr_eq, hvalue, hcrossed]
    exact nextRel_next (K.advance (K.readEffect h he.effect _) _ _)
  | @store _ v m hv =>
    dsimp only
    rw [storeInstr_eq, storeInstr_eq, K.storeMnemonic h hv, K.ea_eq h m]
    exact nextRel_next (K.advance (K.memWrite h _ _) _ _)
  | modify hf => exact nextRel_next (K.advance (K.modify h hf.effect _) _ _)
  | implied he => exact nextRel_next (K.advance (K.impliedMnemonic h he htxs) _ _)
  | branch hc d => dsimp only; rw [K.branchMnemonic h hc]; exact K.branchInstr h _ d
  | jump _ htarget => dsimp only; rw [K.jumpTarget_eq h htarget]; exact nextRel_next (K.goto h _ _)
  | jsr w =>
    rw [execJsr, execJsr, hpc]
    exact K.commit h ((K.pushWord h _).bind fun _ _ hab => .ok (K.goto hab _ _))
  | rts =>
    refine K.commit h ((K.popWord h).bind fun a b ⟨hword, hab⟩ => .ok ?_)
    rw [hword]
    exact K.goto hab _ _
  | brk => exact K.commit h (K.enterTrap h (hstatus (.inr rfl)) _)
  | rti => exact K.commit h (K.leaveTrap h _)
  | pha => exact K.commit h (K.pushInstr h hA.symm _ _)
  | php => exact K.commit h (K.pushInstr h (hstatus (.inl rfl)) _ _)
  | pla =>
    refine K.commit h ((K.pop h).bind fun a b ⟨hbyte, hab⟩ => .ok ?_)
    rw [hbyte]
    exact K.advance (K.loadA hab _) _ _
  | plp =>
    refine K.commit h ((K.pop h).bind fun a b ⟨hbyte, hab⟩ => .ok ?_)
    rw [hbyte]
    exact K.advance (K.setP hab _) _ _

end KeptByOperations

theorem opcode_of_txs : ∀ row ∈ dispatchTable, row.mnemonic = "TXS" → row.opcode = 0x9A := by
  decide +kernel

/-- TXS is the one instruction of its mnemonic. -/
theorem eq_txs_of_mnemonic {op : Byte} {row : Row} (hrow : lookup op = some row) (hname : row.mnemonic = "TXS")
    (b : Byte) (w : Addr) : row.form.instr b w = .txs := by
  obtain ⟨hmem, rfl⟩ := lookup_mem hrow
  rw [opcode_of_txs row hmem hname] at hrow
  cases hrow
  rfl

/-- A relation that the operations keep is kept by every instruction, BRK, PHP and TXS under what they ask for. -/
theorem KeptByOperations.exec {R : State → State → Prop} (K : KeptByOperations R) {s t : State} (h : R s t) (i : Instr)
    (hstatus : i = .php ∨ i = .brk → s.P = t.P)
    (htxs : i = .txs → R { s with S := s.X } { t with S := t.X }) : NextRel R (exec i s) (exec i t) := by
  cases instr_case i with
  | illegal => exact nextRel_next (K.advance h _ _)
  | row b w _ hrow hi hm =>
    exact K.rowMeaning h hm hstatus fun hname =>
      htxs (hi.trans (eq_txs_of_mnemonic hrow hname b w))

/-! ### I, D and B -/

theorem EqButIDB.assign {p q : Byte} (h : EqButIDB p q) (f : Flag) (b : Bool) :
    EqButIDB (assign p f b) (assign q f b) := by
  intro k hk h2 h3 h4
  rw [assign_getLsbD _ _ _ _ hk, assign_getLsbD _ _ _ _ hk, h k hk h2 h3 h4]

/-- A state that agrees with `s` but for I, D and B is `s` with another status byte. -/
theorem agreeButIDB_iff {s t : State} : AgreeButIDB s t ↔ ∃ p, EqButIDB s.P p ∧ t = s.setP p :=
  ⟨fun ⟨hP, ht⟩ => ⟨t.P, hP, ht⟩, by rintro ⟨p, hP, rfl⟩; exact ⟨hP, rfl⟩⟩

/-- The operations look at no other bit of `P` than those the relation keeps. -/
theorem keptByOperations_agreeButIDB : KeptByOperations AgreeButIDB where
  hidden {s t} h := ⟨t.P, s.stack, h.2⟩
  flags h := h.1
  visible h A X Y pc memory cycle run := by
    obtain ⟨p, hP, rfl⟩ := agreeButIDB_iff.mp h
    exact ⟨hP, rfl⟩
  assign h f b := by
    obtain ⟨p, hP, rfl⟩ := agreeButIDB_iff.mp h
    exact ⟨hP.assign f b, rfl⟩
  setP h p := by
    obtain ⟨p, hP, rfl⟩ := agreeButIDB_iff.mp h
    exact ⟨fun _ _ _ _ _ => rfl, rfl⟩
  push {s t} h v := by
    obtain ⟨p, hP, rfl⟩ := agreeButIDB_iff.mp h
    by_cases hS : s.S = 255
    · rw [State.push_full v hS, State.push_full (s := s.setP p) v hS]; exact .error _
    · rw [State.push_ok v hS, State.push_ok (s := s.setP p) v hS]; exact .ok ⟨hP, rfl⟩
  pop {s t} h := by
    obtain ⟨p, hP, rfl⟩ := agreeButIDB_iff.mp h
    by_cases hS : s.S = 0
    · rw [State.pop_empty hS, State.pop_empty (s := s.setP p) hS]; exact .error _
    · rw [State.pop_ok hS, State.pop_ok (s := s.setP p) hS]; exact .ok ⟨rfl, hP, rfl⟩

/-- Settles O26: agreement but for I, D and B is kept by every operation, and only PHP and BRK ask for more. -/
theorem flagsIDBInfluenceNothing : Obligations.FlagsIDBInfluenceNothing := by
  intro i s t hphp hbrk h
  refine keptByOperations_agreeButIDB.exec h i (fun hi => absurd hi (by simp [hphp, hbrk])) fun _ => ?_
  obtain ⟨p, hP, rfl⟩ := agreeButIDB_iff.mp h
  exact ⟨hP, rfl⟩

/-! ### Unpushed stack slots -/

/-- Two states that differ at most in unpushed slots, with canonical stack buffers. -/
def AgreeOnCanonicalStacks (s t : State) : Prop := s.stack.wf = true ∧ t.stack.wf = true ∧ AgreeOnLiveStack s t

theorem agreeOnCanonicalStacks_iff {s t : State} : AgreeOnCanonicalStacks s t ↔ ∃ k : Memory, t = { s with stack := k } ∧
    s.stack.wf = true ∧ k.wf = true ∧
    ∀ i : Byte, 0 < i.toNat → i.toNat ≤ s.S.toNat → s.stack.read i.toNat = k.read i.toNat :=
  ⟨fun ⟨hs, ht, hread, heq⟩ => ⟨t.stack, heq, hs, ht, hread⟩,
    by rintro ⟨k, rfl, hs, hk, hread⟩; exact ⟨hs, hk, hread, rfl⟩⟩

/-- A push writes the same byte to both buffers, and the slots below it are live in both. -/
theorem read_write_eq_of_live {m k : Memory} {i : Byte} (v : Byte) (hm : m.wf = true) (hk : k.wf = true)
    (hread : ∀ j : Byte, 0 < j.toNat → j.toNat < i.toNat → m.read j.toNat = k.read j.toNat) (j : Byte)
    (hpos : 0 < j.toNat) (hj : j.toNat ≤ i.toNat) : (m.write i.toNat v).read j.toNat = (k.write i.toNat v).read j.toNat := by
  by_cases hji : j = i
  · rw [hji, Memory.read_write_same _ v hm, Memory.read_write_same _ v hk]
  · have hne : j.toNat ≠ i.toNat := fun e => hji (BitVec.eq_of_toNat_eq e)
    rw [Memory.read_write_ne v hne, Memory.read_write_ne v hne]
    exact hread j hpos (by omega)

/-- The operations read no slot that holds no pushed byte. -/
theorem keptByOperations_agreeOnCanonicalStacks : KeptByOperations AgreeOnCanonicalStacks where
  hidden {s t} h := ⟨s.P, t.stack, h.2.2.2⟩
  flags h k _ _ _ _ := by
    obtain ⟨k, rfl, -⟩ := agreeOnCanonicalStacks_iff.mp h
    rfl
  visible h A X Y pc memory cycle run := by
    obtain ⟨k, rfl, hs, hk, hread⟩ := agreeOnCanonicalStacks_iff.mp h
    exact ⟨hs, hk, hread, rfl⟩
  assign h f b := by
    obtain ⟨k, rfl, hs, hk, hread⟩ := agreeOnCanonicalStacks_iff.mp h
    exact ⟨hs, hk, hread, rfl⟩
  setP h p := by
    obtain ⟨k, rfl, hs, hk, hread⟩ := agreeOnCanonicalStacks_iff.mp h
    exact ⟨hs, hk, hread, rfl⟩
  push {s t} h v := by
    obtain ⟨k, rfl, hs, hk, hread⟩ := agreeOnCanonicalStacks_iff.mp h
    obtain ⟨hS, hpush⟩ | ⟨hS, hS1, hpush⟩ := s.push_cases v
    · rw [hpush, State.push_full (s := { s with stack := k }) v hS]; exact .error _
    · have hne : s.S ≠ 255 := fun e => absurd (congrArg BitVec.toNat e) hS.ne
      rw [hpush, State.push_ok (s := { s with stack := k }) v hne]
      exact .ok ⟨Memory.write_wf _ v hs, Memory.write_wf _ v hk,
        read_write_eq_of_live (i := s.S + 1) v hs hk fun j hpos hj => hread j hpos (by omega), rfl⟩
  pop {s t} h := by
    obtain ⟨k, rfl, hs, hk, hread⟩ := agreeOnCanonicalStacks_iff.mp h
    obtain ⟨hS, hpop⟩ | ⟨hS, hS1, hpop⟩ := s.pop_cases
    · rw [hpop, State.pop_empty (s := { s with stack := k }) hS]; exact .error _
    · have hne : s.S ≠ 0 := fun e => absurd (congrArg BitVec.toNat e) hS.ne'
      rw [hpop, State.pop_ok (s := { s with stack := k }) hne]
      exact .ok ⟨hread s.S hS (Nat.le_refl _), hs, hk, fun j hpos hj => hread j hpos (by simp only at hj; omega), rfl⟩

/-- Settles O27: agreement on the live stack is kept by every operation but a write of `S` that raises it past pushed bytes. -/
theorem unpushedStackSlotsAreUnobservable : Obligations.UnpushedStackSlotsAreUnobservable := by
  intro i s t htxs hs ht h
  have hP : s.P = t.P := by rw [h.2]
  obtain ⟨s', t', hs', ht', -, -, hagree⟩ :=
    keptByOperations_agreeOnCanonicalStacks.exec ⟨hs, ht, h⟩ i (fun _ => hP) fun hi => absurd hi htxs
  exact ⟨s', t', hs', ht', hagree⟩

end Sys2Proof.Machine
end
